-- ==== Sys2Proof/Word.lean ====
section
/-! DEFINITION. The two word types of the unit: the byte (one field element, R79) and the 32-bit register word (R12). -/

namespace Sys2Proof

/-- One byte of buffer memory, one field element (R46, R79). -/
abbrev Byte := BitVec 8

/-- A 32-bit register value or command word (R12, R65). -/
abbrev Word := BitVec 32

end Sys2Proof
end

