-- ==== Sys2Proof/Syntax.lean ====
section
/-! DEFINITION. The commands of the unit: one constructor per row of spec/opcode_table.json (30_encoding.md R67). -/

namespace Sys2Proof

/-- The nine commands (R67). Field-element operands are bytes (R68, R79), the width of SWID a natural number (R68). The
buffer operands are registers and not part of the command (R68). -/
inductive Instr where
  /-- ADD a, b (R85). -/
  | add (a b : Byte)
  /-- MUL a, b (R86). -/
  | mul (a b : Byte)
  /-- DIV a, b (R87): a is the dividend, b the divisor. -/
  | div (a b : Byte)
  /-- INV a (R88). -/
  | inv (a : Byte)
  /-- MAC c (R89). -/
  | mac (c : Byte)
  /-- SCLR (R96). -/
  | sclr
  /-- SWID n (R97). -/
  | swid (n : Nat)
  /-- SINS (R98). -/
  | sins
  /-- SSOL (R99). -/
  | ssol
  deriving DecidableEq, Repr

end Sys2Proof
end

