-- ==== Sys2Proof/WellFormed.lean ====
section
/-! DEFINITION. Which commands an encoding exists for: every operand fits its field (30_encoding.md R66, R68, R73). -/

namespace Sys2Proof

/-- Every operand fits its field. The element operands are bytes by type (R68), so the one check left is that the width of
SWID is a natural number 0..65535 (R66, R68). -/
def Instr.wf : Instr → Bool
  | .add _ _ => true
  | .mul _ _ => true
  | .div _ _ => true
  | .inv _ => true
  | .mac _ => true
  | .sclr => true
  | .swid n => decide (n < 2 ^ 16)
  | .sins => true
  | .ssol => true

end Sys2Proof
end

