-- ==== Sys2Proof/Decode.lean ====
section
/-! DEFINITION. The decoder of R69, total on every 32-bit word and rejecting by name, and the encoder of R76
(30_encoding.md). -/

namespace Sys2Proof

/-- Why a word decodes to ILLEGAL (R69 to R71). Both reasons raise the same `Error(ILLEGAL)` (R110). -/
inductive Illegal where
  /-- The OPC value is one of the 247 reserved ones (R71). -/
  | reservedOpcode
  /-- A field marked "must be 0" holds a 1 bit (R70). -/
  | fieldNotZero
  deriving DecidableEq, Repr

/-- OPC, bits 31:24 (R66). -/
def opcField (w : Word) : BitVec 8 := w.extractLsb' 24 8

/-- A, bits 23:16 (R68). -/
def aField (w : Word) : Byte := w.extractLsb' 16 8

/-- B, bits 15:8 (R68). -/
def bField (w : Word) : Byte := w.extractLsb' 8 8

/-- N, bits 15:0, a natural number (R68). -/
def nField (w : Word) : Nat := (w.extractLsb' 0 16).toNat

/-- The command `i`, if the bits the format marks "must be 0" are zero (R70). -/
def ifZero {k : Nat} (z : BitVec k) (i : Instr) : Except Illegal Instr :=
  if z = 0#k then .ok i else .error .fieldNotZero

/-- R69: the command a word stands for, or ILLEGAL by name. -/
def decode (w : Word) : Except Illegal Instr :=
  if opcField w = 0x01#8 then ifZero (w.extractLsb' 0 8) (.add (aField w) (bField w))
  else if opcField w = 0x02#8 then ifZero (w.extractLsb' 0 8) (.mul (aField w) (bField w))
  else if opcField w = 0x03#8 then ifZero (w.extractLsb' 0 8) (.div (aField w) (bField w))
  else if opcField w = 0x04#8 then ifZero (w.extractLsb' 0 16) (.inv (aField w))
  else if opcField w = 0x08#8 then ifZero (w.extractLsb' 0 16) (.mac (aField w))
  else if opcField w = 0x10#8 then ifZero (w.extractLsb' 0 24) .sclr
  else if opcField w = 0x11#8 then ifZero (w.extractLsb' 16 8) (.swid (nField w))
  else if opcField w = 0x12#8 then ifZero (w.extractLsb' 0 24) .sins
  else if opcField w = 0x13#8 then ifZero (w.extractLsb' 0 24) .ssol
  else .error .reservedOpcode

/-- Format F: `{opc, a, b, 0x00}` (R66, R76). -/
def formatF (opc : BitVec 8) (a b : Byte) : Word := opc ++ a ++ b ++ 0x00#8

/-- Format W: `{opc, 0x00, n[15:0]}` (R66, R76). -/
def formatW (opc : BitVec 8) (n : Nat) : Word := opc ++ 0x00#8 ++ BitVec.ofNat 16 n

/-- R76: the word of a command. -/
def encode : Instr → Word
  | .add a b => formatF 0x01 a b
  | .mul a b => formatF 0x02 a b
  | .div a b => formatF 0x03 a b
  | .inv a => formatF 0x04 a 0x00
  | .mac c => formatF 0x08 c 0x00
  | .sclr => formatF 0x10 0x00 0x00
  | .swid n => formatW 0x11 n
  | .sins => formatF 0x12 0x00 0x00
  | .ssol => formatF 0x13 0x00 0x00

/-- The `match` column of R67. -/
def tableMatch : Instr → Word
  | .add _ _ => 0x01000000
  | .mul _ _ => 0x02000000
  | .div _ _ => 0x03000000
  | .inv _ => 0x04000000
  | .mac _ => 0x08000000
  | .sclr => 0x10000000
  | .swid _ => 0x11000000
  | .sins => 0x12000000
  | .ssol => 0x13000000

/-- The `mask` column of R67. -/
def tableMask : Instr → Word
  | .add _ _ => 0xFF0000FF
  | .mul _ _ => 0xFF0000FF
  | .div _ _ => 0xFF0000FF
  | .inv _ => 0xFF00FFFF
  | .mac _ => 0xFF00FFFF
  | .sclr => 0xFFFFFFFF
  | .swid _ => 0xFFFF0000
  | .sins => 0xFFFFFFFF
  | .ssol => 0xFFFFFFFF

/-- The command word whose low `nbits` bits are those of `w` and whose other bits are 0. A command is exactly one 32-bit
word, so nothing above bit 31 exists (R65). -/
def tableWord (nbits w : Nat) : Word := BitVec.ofNat 32 (w % 2 ^ nbits)

/-- The command the decoder reads from the word that spec/opcode_table.json numbers `w`. A number that needs more than 32
bits is no command word (R65). -/
def decodeTableWord (nbits w : Nat) : Option Instr :=
  if w % 2 ^ nbits < 2 ^ 32 then
    match decode (tableWord nbits w) with
    | .ok i => some i
    | .error _ => none
  else none

end Sys2Proof
end

