-- ==== Sys2Proof/Config.lean ====
section
/-! DEFINITION. The OPEN parameters of the unit (00_scope.md R7 to R11), the reference configuration, and the free
values: bytes the spec calls "any value", as constants with no body. -/

namespace Sys2Proof

/-- The parameters an implementation fixes (R7 to R11). -/
structure Config where
  /-- FIELD_POLY, the reduction polynomial, bit 8 the x^8 term (R7). -/
  fieldPoly : BitVec 9
  /-- MAX_COLS, the largest window width and row count (R8). -/
  maxCols : Nat
  /-- MAX_SYM, the largest payload length of a row, in bytes (R9). -/
  maxSym : Nat
  /-- MEM_SIZE, the bytes of buffer memory (R10). -/
  memSize : Nat
  /-- GFU_BASE, the host address of the register block (R11). -/
  gfuBase : Nat
  deriving DecidableEq, Repr

/-- The sixteen legal values of FIELD_POLY, as R7 lists them. -/
def legalPolys : List (BitVec 9) :=
  [0x11D, 0x12B, 0x12D, 0x14D, 0x15F, 0x163, 0x165, 0x169] ++
  [0x171, 0x187, 0x18D, 0x1A9, 0x1C3, 0x1CF, 0x1E7, 0x1F5]

/-- Every parameter has a legal value (R7 to R11). -/
abbrev Config.Legal (c : Config) : Prop :=
  c.fieldPoly ∈ legalPolys ∧
  (1 ≤ c.maxCols ∧ c.maxCols ≤ 65535) ∧
  (1 ≤ c.maxSym ∧ c.maxSym ≤ 2 ^ 32 - 1) ∧
  (1 ≤ c.memSize ∧ c.memSize ≤ 2 ^ 32) ∧
  c.gfuBase % 256 = 0

/-- The reference configuration of 00_scope.md (D30). DESIGN CHOICE (log 4): the reset state uses it, with GFU_BASE 0,
which no vector uses. -/
def Config.reference : Config :=
  { fieldPoly := 0x11D, maxCols := 8, maxSym := 16, memSize := 0x1000, gfuBase := 0 }

/-- FREE VALUE (log 5): what the platform left in the byte of buffer memory at an address (R46, R120,
93_implementation_defined.md item 17: "any value, an unconstrained launch input"). -/
opaque Config.launchByte : Nat → Byte

/-- FREE VALUE (log 6): the k-th byte drawn for the written footprint of commands abandoned by reset (R121: "an
independent draw per byte"). -/
opaque Config.abandonedByte : Nat → Byte

/-- FREE VALUE (log 13): `gf_inv` of an element that has no inverse, which R82 leaves "not defined". No command reads it. -/
opaque Config.noInverse : Byte → Byte

end Sys2Proof
end

