-- ==== Sys2Proof/Machine/Field.lean ====
section
/-! DEFINITION. Arithmetic of GF(2^8) (40_field_scalar.md R79 to R83). `p` is FIELD_POLY. -/

namespace Sys2Proof.Machine

/-- R80: addition is exclusive OR. -/
def gfAdd (a b : Byte) : Byte := a ^^^ b

/-- R80: subtraction is exclusive OR too. -/
def gfSub (a b : Byte) : Byte := a ^^^ b

/-- The body of R81's loop at index `i`, on the pair `(p, t)`; `low` is FIELD_POLY[7:0]. -/
def gfMulStep (low b : Byte) (pt : Byte × Byte) (i : Nat) : Byte × Byte :=
  (if b.getLsbD i then pt.1 ^^^ pt.2 else pt.1,
   if pt.2.getLsbD 7 then (pt.2 <<< 1) ^^^ low else pt.2 <<< 1)

/-- R81: the product of two elements, by the shift-and-add loop `for i in 0 .. 7`. -/
def gfMul (p : BitVec 9) (a b : Byte) : Byte :=
  ((List.range 8).foldl (gfMulStep (p.setWidth 8) b) (0x00#8, a)).1

/-- R82: the element `b` with `gf_mul(a, b) = 0x01`. Where there is none (a = 0) the spec defines no inverse, and the
value is free (log 13): DIV and INV raise DIV_ZERO first, and the solver inverts only a nonzero coefficient. -/
def gfInv (p : BitVec 9) (a : Byte) : Byte :=
  (((List.range 256).map (BitVec.ofNat 8)).find? (fun b => gfMul p a b == 0x01#8)).getD (Config.noInverse a)

/-- R83: division, for `b != 0x00`. -/
def gfDiv (p : BitVec 9) (a b : Byte) : Byte := gfMul p a (gfInv p b)

end Sys2Proof.Machine
end

