-- ==== Sys2Proof/Machine/State.lean ====
section
/-! DEFINITION. What the machine's state holds, as plain data (10_state.md R13), the reasons a step can stop, and the state
right after reset (70_reset_and_hazards.md R119). -/

namespace Sys2Proof.Machine

/-- Buffer memory (R46), sparse: (address, byte) pairs with strictly rising addresses. An unlisted byte reads as its free
launch value (log 5). -/
abbrev Memory := List Host.Cell

/-- The error codes of R104. The codes 10 to 15 are never reported, so they have no constructor. -/
inductive ErrCode where
  /-- 0, NONE: the last completed command succeeded. -/
  | noError
  /-- 1, ILLEGAL: the word decodes to ILLEGAL. -/
  | illegal
  /-- 2, DIV_ZERO: division by, or inverse of, zero. -/
  | divZero
  /-- 3, RANGE: a buffer not inside 0..MEM_SIZE-1. -/
  | range
  /-- 4, OVERLAP: MAC's buffers overlap but are not the same. -/
  | overlap
  /-- 5, WIDTH_SHRINK: new width below the current width. -/
  | widthShrink
  /-- 6, WIDTH_OVERFLOW: new width above MAX_COLS. -/
  | widthOverflow
  /-- 7, LEN_OVERFLOW: LEN above MAX_SYM. -/
  | lenOverflow
  /-- 8, LEN_MISMATCH: LEN differs from the latched SLEN while RANK > 0. -/
  | lenMismatch
  /-- 9, NOT_FULL: W = 0 or RANK < W. -/
  | notFull
  deriving DecidableEq, Repr

/-- One equation of the solver: a coefficient vector and a payload (R38). -/
structure Row where
  /-- `c`, W field elements, element j the coefficient of column j (R94). -/
  coef : List Byte
  /-- `s`, SLEN field elements. -/
  payload : List Byte
  deriving DecidableEq, Repr

/-- The solver state `(W, rows, SLEN, DEP)` of R38. RANK is the number of rows. -/
structure Solver where
  /-- W, the width of the decoding window. -/
  width : Nat
  /-- The accepted rows, in order of acceptance. -/
  rows : List Row
  /-- SLEN, the payload length all rows share. -/
  slen : Nat
  /-- DEP, the outcome of the last successful SINS. -/
  dep : Bool
  deriving DecidableEq, Repr

/-- The clear solver `(0, [], 0, 0)` (R38, R96). -/
def Solver.clear : Solver := { width := 0, rows := [], slen := 0, dep := false }

/-- The in-flight command of R44. -/
structure InFlight where
  /-- The command word written at issue. -/
  word : Word
  /-- DST at issue. -/
  dst : Word
  /-- SRC at issue. -/
  src : Word
  /-- COEF at issue. -/
  coef : Word
  /-- LEN at issue. -/
  len : Word
  /-- Progress: how many one-byte accesses the unit has made. -/
  made : Nat
  /-- Progress: bytes read and still held (MAC: of the element at hand; SINS: all read so far). -/
  fetched : List Byte
  deriving DecidableEq, Repr

/-- One step of the global order of R56: which agent moves, and what a host step asks for. DESIGN CHOICE (log 1). -/
inductive Turn where
  /-- A host read of `bytes` bytes at host address `addr` (R45, R51). -/
  | busRead (addr bytes : Nat)
  /-- A host write of `v`, `bytes` bytes wide, at host address `addr` (R45, R51). -/
  | busWrite (addr bytes : Nat) (v : Word)
  /-- A host read of one byte of buffer memory (R56). -/
  | memRead (a : Nat)
  /-- A host write of one byte of buffer memory (R56). -/
  | memWrite (a : Nat) (v : Byte)
  /-- The engine's next step: one unit access, or the completion (R56). -/
  | engine
  /-- The engine's remaining steps up to and with the completion, taken together (log 2). -/
  | command
  /-- The platform drives the `rst` input to a level (R119). -/
  | rst (level : Bool)
  deriving DecidableEq, Repr

/-- Why a step stops with a fault. -/
inductive Fault where
  /-- Raised by a host access to byte `a` of the footprint of the command in flight (R60, R126). Safe: the spec gives no
  outcome and says a model faults. -/
  | hostRace (a : Nat)
  /-- Raised by a host access to buffer memory at address `a` at or above MEM_SIZE (R46, log 9). Safe: no such byte exists. -/
  | noSuchByte (a : Nat)
  deriving DecidableEq, Repr

/-- Why a step has no meaning. -/
inductive Refusal where
  /-- Raised by an arm of `exec` for a command that has no meaning yet; no arm does. Safe. -/
  | notModelled (mnemonic : String)
  /-- Raised by a host access to the register block that is not 32 bits wide at a multiple of 4 (R51). Safe: "A model
  refuses such an access". -/
  | accessShape
  /-- Raised by a host access to the register block while `rst` is asserted (R122). Safe: "A model refuses such an access". -/
  | accessDuringReset
  /-- Raised by a host bus access outside the 256 bytes of the register block (R15, R54, log 10). Safe: it is not the unit's. -/
  | outsideRegisterBlock
  deriving DecidableEq, Repr

/-- The whole state (R13): the register block, the solver, the in-flight command and buffer memory. Then the parameters
(log 4), the `rst` level, and the model's own `turns`, `readData` and `draws` (logs 1, 7, 6). STATUS.BUSY, DEP and FULL, the
configuration registers, WIDTH, RANK and SLEN are views of these fields. -/
structure State where
  /-- The parameters of R7 to R11; no step changes them. -/
  cfg : Config
  /-- The level of the `rst` input (R119). -/
  rst : Bool
  /-- CTRL.DONE_IE (R20). -/
  doneIe : Bool
  /-- CTRL.ERR_IE (R20). -/
  errIe : Bool
  /-- STATUS.DONE (R22). -/
  done : Bool
  /-- STATUS.ERR (R23). -/
  err : Bool
  /-- STATUS.OVR (R24). -/
  ovr : Bool
  /-- ERRCODE (R28). -/
  errcode : ErrCode
  /-- RESULT, bits 7:0; the other bits read 0 (R30). -/
  result : Byte
  /-- DST (R31). -/
  dst : Word
  /-- SRC (R32). -/
  src : Word
  /-- COEF (R33). -/
  coef : Word
  /-- LEN (R34). -/
  len : Word
  /-- The solver (R38). -/
  solver : Solver
  /-- The in-flight command (R44); present exactly while STATUS.BUSY = 1 (R21). -/
  inflight : Option InFlight
  /-- Buffer memory (R46). -/
  mem : Memory
  /-- The model's own: the steps to come, in the global order of R56. -/
  turns : List Turn
  /-- The model's own: what the last host read returned, a byte zero-extended (log 7). -/
  readData : Word
  /-- The model's own: how many free bytes have been drawn (log 6). -/
  draws : Nat
  deriving DecidableEq, Repr

/-- The reset values of R119 for a unit with the parameters `cfg`: nothing listed in memory (R120), no turn listed. -/
def State.powerUp (cfg : Config) : State :=
  { cfg := cfg, rst := false, doneIe := false, errIe := false, done := false, err := false, ovr := false,
    errcode := .noError, result := 0, dst := 0, src := 0, coef := 0, len := 0, solver := Solver.clear,
    inflight := none, mem := [], turns := [], readData := 0, draws := 0 }

/-- The machine right after reset (R119), at the reference configuration (log 4). -/
def State.reset : State := State.powerUp Config.reference

end Sys2Proof.Machine
end

