-- ==== Sys2Proof/Machine/Linear.lean ====
section
/-! DEFINITION. Linear algebra over GF(2^8): span and independence as R92 defines them, and the exact test and solution by
the reduced row-echelon form of R100 and R101 (42_solver.md). `p` is FIELD_POLY. -/

namespace Sys2Proof.Machine

/-- Elementwise gf_add (R92). -/
def vecAdd (u v : List Byte) : List Byte := List.zipWith gfAdd u v

/-- Elementwise gf_mul by a scalar (R92). -/
def vecScale (p : BitVec 9) (k : Byte) (v : List Byte) : List Byte := v.map (gfMul p k)

/-- `λ_0·v_0 ^ … ^ λ_{k-1}·v_{k-1}` in GF^n (R92). -/
def linComb (p : BitVec 9) (n : Nat) (ks : List Byte) (vs : List (List Byte)) : List Byte :=
  (List.zipWith (vecScale p) ks vs).foldr vecAdd (List.replicate n 0x00#8)

/-- R92: `c` is in the span of the vectors `vs` of GF^n. The mathematical definition; `inSpan` is the test. -/
def InSpan (p : BitVec 9) (n : Nat) (vs : List (List Byte)) (c : List Byte) : Prop :=
  ∃ ks : List Byte, ks.length = vs.length ∧ linComb p n ks vs = c

/-- R92: no vector of the list is in the span of the others. -/
def Independent (p : BitVec 9) (n : Nat) (vs : List (List Byte)) : Prop :=
  ∀ k : Nat, (h : k < vs.length) → ¬ InSpan p n (vs.eraseIdx k) vs[k]

/-- The equation `r` minus `f` times the equation `b` (R100: coefficients and payload together). -/
def Row.eliminate (p : BitVec 9) (f : Byte) (b r : Row) : Row :=
  { coef := vecAdd r.coef (vecScale p f b.coef), payload := vecAdd r.payload (vecScale p f b.payload) }

/-- The equation `r` times `g` (R100). -/
def Row.scale (p : BitVec 9) (g : Byte) (r : Row) : Row :=
  { coef := vecScale p g r.coef, payload := vecScale p g r.payload }

/-- One row of the reduced form: an equation and its pivot column (R100). -/
structure BasisRow where
  /-- The pivot column `q`; the coefficient there is 1. -/
  pivot : Nat
  /-- The equation. -/
  row : Row
  deriving DecidableEq, Repr

/-- R100, `reduce`: subtract from `r` what its coefficient at each pivot calls for. -/
def reduceRow (p : BitVec 9) (basis : List BasisRow) (r : Row) : Row :=
  basis.foldl (fun r b => Row.eliminate p (r.coef.getD b.pivot 0x00#8) b.row r) r

/-- The lowest column with a nonzero coefficient (R100). -/
def leadingColumn (c : List Byte) : Option Nat := c.findIdx? (· != 0x00#8)

/-- R100, on accept: scale the reduced candidate `r` so that the coefficient at its pivot column `q` is 1. -/
def normalize (p : BitVec 9) (q : Nat) (r : Row) : Row := Row.scale p (gfInv p (r.coef.getD q 0x00#8)) r

/-- R100, on accept: the basis row `b` minus its multiple of the new row `n` with pivot column `q`. -/
def clearColumn (p : BitVec 9) (q : Nat) (n : Row) (b : BasisRow) : BasisRow :=
  { b with row := Row.eliminate p (b.row.coef.getD q 0x00#8) n b.row }

/-- R100: the basis with the equation of `r`, already reduced, added. A row that reduced to zero adds nothing. -/
def addReduced (p : BitVec 9) (basis : List BasisRow) (r : Row) : List BasisRow :=
  match leadingColumn r.coef with
  | none => basis
  | some q => basis.map (clearColumn p q (normalize p q r)) ++ [{ pivot := q, row := normalize p q r }]

/-- R100: reduce the equation `r` by the basis, then add it. -/
def extendBasis (p : BitVec 9) (basis : List BasisRow) (r : Row) : List BasisRow :=
  addReduced p basis (reduceRow p basis r)

/-- The reduced row-echelon form of a list of equations (R100). -/
def reducedBasis (p : BitVec 9) (rows : List Row) : List BasisRow := rows.foldl (extendBasis p) []

/-- R100: the exact test of `in_span(V, c)`: `c` reduces to zero. -/
def inSpan (p : BitVec 9) (vs : List (List Byte)) (c : List Byte) : Bool :=
  (leadingColumn
    (reduceRow p (reducedBasis p (vs.map fun v => { coef := v, payload := [] })) { coef := c, payload := [] }).coef).isNone

/-- R95, R101: the solution of a full system: unknown q is the payload of the basis row with pivot q. -/
def solve (p : BitVec 9) (w : Nat) (rows : List Row) : List (List Byte) :=
  (List.range w).map fun q =>
    match (reducedBasis p rows).find? (fun b => b.pivot == q) with
    | some b => b.row.payload
    | none => []

/-- R93: square and full rank. STATUS.FULL reads this (R26). -/
def Solver.full (sv : Solver) : Bool := decide (0 < sv.width) && sv.rows.length == sv.width

/-- R97: zero-pad every row at the high end, up to the width `n`. -/
def Solver.grow (n : Nat) (sv : Solver) : Solver :=
  { sv with
    rows := sv.rows.map fun r => { r with coef := r.coef ++ List.replicate (n - sv.width) 0x00#8 }
    width := n }

/-- R98: discard a dependent candidate, append an independent one; `n` is the payload length. -/
def Solver.insertRow (p : BitVec 9) (n : Nat) (r : Row) (sv : Solver) : Solver :=
  if inSpan p (sv.rows.map Row.coef) r.coef then { sv with dep := true }
  else
    { sv with
      rows := sv.rows ++ [r]
      slen := if sv.rows.length = 0 then n else sv.slen
      dep := false }

/-- The product of a row of the matrix with a vector of unknowns: `c[0]·x[0] ^ c[1]·x[1] ^ …` (R95). -/
def dot (p : BitVec 9) (c x : List Byte) : Byte := (List.zipWith (gfMul p) c x).foldr gfAdd 0x00#8

/-- R40 I4: the square matrix with the rows `vs` is invertible: every right-hand side has exactly one solution. -/
def Invertible (p : BitVec 9) (w : Nat) (vs : List (List Byte)) : Prop :=
  ∀ b : List Byte, b.length = w → ∃! x : List Byte, x.length = w ∧ vs.map (fun c => dot p c x) = b

/-- R95: `xs` is a solution of the equations `rows` in `w` unknowns of `n` bytes each. -/
def Solves (p : BitVec 9) (w n : Nat) (rows : List Row) (xs : List (List Byte)) : Prop :=
  xs.length = w ∧ (∀ x ∈ xs, x.length = n) ∧
  ∀ r ∈ rows, ∀ b < n, dot p r.coef (xs.map fun x => x.getD b 0x00#8) = r.payload.getD b 0x00#8

/-- R95: the solution of the system the solver holds. -/
def Solver.solution (p : BitVec 9) (sv : Solver) : List (List Byte) := solve p sv.width sv.rows

/-- R94, R99: the k-th byte SSOL writes, byte `k % SLEN` of unknown `k / SLEN`. -/
def solutionByte (xs : List (List Byte)) (slen k : Nat) : Byte := (xs.getD (k / slen) []).getD (k % slen) 0x00#8

end Sys2Proof.Machine
end

