-- ==== Sys2Proof/Machine/Ops.lean ====
section
/-! DEFINITION. The named operations over buffer memory and the registers, the issue of a command, and its completion with
and without error (60_exceptions.md R106, R107). An error completion is this unit's whole form of an exception: it has no
handler, no vector and no saved state (R112). -/

namespace Sys2Proof.Machine

/-- The canonical form of buffer memory: addresses strictly rising (log 5). -/
abbrev Memory.wf (m : Memory) : Prop := (m.map Prod.fst).Pairwise (· < ·)

/-- `MemRead(a, 1)` (R12, R47). An unlisted byte holds what the platform left there (R120). -/
def Memory.read : Memory → Nat → Byte
  | [], a => Config.launchByte a
  | (k, v) :: m, a => if a = k then v else Memory.read m a

/-- `MemWrite(a, 1, v)` (R12, R47). -/
def Memory.write : Memory → Nat → Byte → Memory
  | [], a, v => [(a, v)]
  | (k, w) :: m, a, v =>
    if a < k then (a, v) :: (k, w) :: m
    else if a = k then (a, v) :: m
    else (k, w) :: Memory.write m a v

/-- `MemRead(a, n)`: the `n` bytes from `a` on, element 0 first (R12, R46). -/
def Memory.readMany (m : Memory) (a n : Nat) : List Byte := (List.range n).map fun i => m.read (a + i)

/-- `n` free bytes, the draws `d`, `d + 1`, …, written from `a` on (R121). -/
def Memory.scramble (m : Memory) (a d : Nat) : Nat → Memory
  | 0 => m
  | n + 1 => (Memory.scramble m a d n).write (a + n) (Config.abandonedByte (d + n))

/-- Buffer memory replaced. -/
def State.setMem (m : Memory) (s : State) : State := { s with mem := m }

/-- RESULT written (R30). -/
def State.setResult (v : Byte) (s : State) : State := { s with result := v }

/-- The solver replaced. -/
def State.setSolver (sv : Solver) (s : State) : State := { s with solver := sv }

/-- The in-flight command replaced: its progress (R44). -/
def State.setInflight (f : InFlight) (s : State) : State := { s with inflight := some f }

/-- What a host read returned (log 7). -/
def State.setReadData (v : Word) (s : State) : State := { s with readData := v }

/-- The steps to come replaced (log 1). -/
def State.setTurns (ts : List Turn) (s : State) : State := { s with turns := ts }

/-- STATUS.BUSY: 1 exactly while a command is in flight (R21). -/
def State.busy (s : State) : Bool := s.inflight.isSome

/-- The in-flight command of an issue of `w`: the operand registers latched, no access made (R44). -/
def State.freshFlight (w : Word) (s : State) : InFlight :=
  { word := w, dst := s.dst, src := s.src, coef := s.coef, len := s.len, made := 0, fetched := [] }

/-- R21, issue: BUSY becomes 1, DONE becomes 0, the command is in flight. -/
def State.issue (w : Word) (s : State) : State :=
  { s with done := false, inflight := some (s.freshFlight w) }

/-- R106: the completion of a command that raised `Error(code)`. -/
def State.errorCompletion (code : ErrCode) (s : State) : State :=
  { s with inflight := none, done := true, err := true, errcode := code }

/-- R107: the completion of a command that ran to its end; `s` has the command's own effects. -/
def State.successCompletion (s : State) : State :=
  { s with inflight := none, done := true, errcode := .noError }

/-- The end of a command: the first error that applies (R108), or its effects `t` and success. -/
def State.conclude (s : State) (e : Option ErrCode) (t : State) : Host.Outcome State Fault Refusal :=
  match e with
  | some code => .next (s.errorCompletion code)
  | none => .next t.successCompletion

/-- R119: every piece of the unit's state takes its reset value. Buffer memory (R120), the parameters, the `rst` level and
the model's own fields are not the unit's. -/
def State.resetUnit (s : State) : State :=
  { State.powerUp s.cfg with mem := s.mem, rst := s.rst, turns := s.turns, readData := s.readData, draws := s.draws }

end Sys2Proof.Machine
end

