-- ==== Sys2Proof/Machine/Operands.lean ====
section
/-! DEFINITION. The operands a command takes from registers, the range and overlap predicates over buffers, and the checks
of every command in the order of 60_exceptions.md R108. -/

namespace Sys2Proof.Machine

/-- The command in flight, whose operands were latched at issue (R44). A meaning applied where nothing is in flight issues
its command there (log 3). -/
def State.flight (i : Instr) (s : State) : InFlight := s.inflight.getD (s.freshFlight (encode i))

/-- DST at issue, an unsigned natural number (R31, R68). -/
def InFlight.dstNat (f : InFlight) : Nat := f.dst.toNat

/-- SRC at issue (R32, R68). -/
def InFlight.srcNat (f : InFlight) : Nat := f.src.toNat

/-- COEF at issue (R33, R68). -/
def InFlight.coefNat (f : InFlight) : Nat := f.coef.toNat

/-- LEN at issue (R34, R68). -/
def InFlight.lenNat (f : InFlight) : Nat := f.len.toNat

/-- R48: the buffer of `n` bytes at `a` lies in buffer memory. No wrap-around (R49). -/
def inRange (cfg : Config) (a n : Nat) : Bool := decide (a + n ≤ cfg.memSize)

/-- R89: the buffers of `n` bytes at `d` and `s` overlap without being the same. -/
def overlapping (d s n : Nat) : Bool := decide (0 < n ∧ d ≠ s ∧ d < s + n ∧ s < d + n)

/-- The first of a list of checks that applies gives the code (R108). -/
def firstError : List (Bool × ErrCode) → Option ErrCode
  | [] => none
  | (applies, code) :: rest => if applies then some code else firstError rest

/-- DIV: DIV_ZERO for the divisor 0 (R87). -/
def divError (b : Byte) : Option ErrCode := firstError [(b == 0x00#8, .divZero)]

/-- INV: DIV_ZERO for 0 (R88). -/
def invError (a : Byte) : Option ErrCode := firstError [(a == 0x00#8, .divZero)]

/-- MAC: RANGE (DST), RANGE (SRC), OVERLAP (R89). -/
def macError (cfg : Config) (f : InFlight) : Option ErrCode :=
  firstError
    [(!inRange cfg f.dstNat f.lenNat, .range),
     (!inRange cfg f.srcNat f.lenNat, .range),
     (overlapping f.dstNat f.srcNat f.lenNat, .overlap)]

/-- SWID: WIDTH_SHRINK, WIDTH_OVERFLOW (R97). -/
def swidError (cfg : Config) (sv : Solver) (n : Nat) : Option ErrCode :=
  firstError [(decide (n < sv.width), .widthShrink), (decide (cfg.maxCols < n), .widthOverflow)]

/-- SINS: LEN_OVERFLOW, LEN_MISMATCH, RANGE (COEF), RANGE (SRC) (R98). -/
def sinsError (cfg : Config) (sv : Solver) (f : InFlight) : Option ErrCode :=
  firstError
    [(decide (cfg.maxSym < f.lenNat), .lenOverflow),
     (decide (0 < sv.rows.length ∧ f.lenNat ≠ sv.slen), .lenMismatch),
     (!inRange cfg f.coefNat sv.width, .range),
     (!inRange cfg f.srcNat f.lenNat, .range)]

/-- SSOL: NOT_FULL, RANGE (DST) (R99). -/
def ssolError (cfg : Config) (sv : Solver) (f : InFlight) : Option ErrCode :=
  firstError
    [(decide (sv.width = 0 ∨ sv.rows.length ≠ sv.width), .notFull),
     (!inRange cfg f.dstNat (sv.width * sv.slen), .range)]

/-- The error command `i` reports, if any (R108). A word that decodes to no command is ILLEGAL before any of this. -/
def errorOf (i : Instr) (s : State) (f : InFlight) : Option ErrCode :=
  match i with
  | .add _ _ => none
  | .mul _ _ => none
  | .div _ b => divError b
  | .inv a => invError a
  | .mac _ => macError s.cfg f
  | .sclr => none
  | .swid n => swidError s.cfg s.solver n
  | .sins => sinsError s.cfg s.solver f
  | .ssol => ssolError s.cfg s.solver f

end Sys2Proof.Machine
end

