-- ==== Sys2Proof/Machine/Access.lean ====
section
/-! DEFINITION. The unit's one-byte accesses to buffer memory (20_memory.md R47, R56): what each access of a command does,
how many it makes, and its footprint (R58). A progress is the in-flight command with its counters, beside memory. -/

namespace Sys2Proof.Machine

/-- One byte read and held. -/
def fetchByte (a : Nat) (fm : InFlight × Memory) : InFlight × Memory :=
  ({ fm.1 with made := fm.1.made + 1, fetched := fm.1.fetched ++ [fm.2.read a] }, fm.2)

/-- One byte written; nothing is held afterwards. -/
def storeByte (a : Nat) (v : Byte) (fm : InFlight × Memory) : InFlight × Memory :=
  ({ fm.1 with made := fm.1.made + 1, fetched := [] }, fm.2.write a v)

/-- The next access of `MAC c`: for element i, read `s + i`, read `d + i`, write `d + i` (R89, in the order of its loop). -/
def macAccess (p : BitVec 9) (c : Byte) (fm : InFlight × Memory) : InFlight × Memory :=
  if fm.1.made % 3 = 0 then fetchByte (fm.1.srcNat + fm.1.made / 3) fm
  else if fm.1.made % 3 = 1 then fetchByte (fm.1.dstNat + fm.1.made / 3) fm
  else
    storeByte (fm.1.dstNat + fm.1.made / 3)
      (gfAdd (fm.1.fetched.getD 1 0x00#8) (gfMul p c (fm.1.fetched.getD 0 0x00#8))) fm

/-- The next access of SINS: the `w` coefficient bytes, then the payload (R98, in its order). -/
def sinsAccess (w : Nat) (fm : InFlight × Memory) : InFlight × Memory :=
  if fm.1.made < w then fetchByte (fm.1.coefNat + fm.1.made) fm
  else fetchByte (fm.1.srcNat + (fm.1.made - w)) fm

/-- The next access of SSOL: the next byte of the solution `xs`, in window order (R99, in its order). -/
def ssolAccess (xs : List (List Byte)) (slen : Nat) (fm : InFlight × Memory) : InFlight × Memory :=
  storeByte (fm.1.dstNat + fm.1.made) (solutionByte xs slen fm.1.made) fm

/-- All accesses still to make, out of `total`. -/
def runAccesses (access : InFlight × Memory → InFlight × Memory) (total : Nat) (f : InFlight) (m : Memory) :
    InFlight × Memory :=
  access^[total - f.made] (f, m)

/-- How many one-byte accesses command `i` makes: none if it raises an error (R48, R58). -/
def accessTotal (i : Instr) (s : State) (f : InFlight) : Nat :=
  if (errorOf i s f).isSome then 0
  else
    match i with
    | .add _ _ => 0
    | .mul _ _ => 0
    | .div _ _ => 0
    | .inv _ => 0
    | .mac _ => 3 * f.lenNat
    | .sclr => 0
    | .swid _ => 0
    | .sins => s.solver.width + f.lenNat
    | .ssol => s.solver.width * s.solver.slen

/-- The next one-byte access of command `i` (R56); a command without accesses makes none. -/
def accessOnce (i : Instr) (s : State) (fm : InFlight × Memory) : InFlight × Memory :=
  match i with
  | .add _ _ => fm
  | .mul _ _ => fm
  | .div _ _ => fm
  | .inv _ => fm
  | .mac c => macAccess s.cfg.fieldPoly c fm
  | .sclr => fm
  | .swid _ => fm
  | .sins => sinsAccess s.solver.width fm
  | .ssol => ssolAccess (s.solver.solution s.cfg.fieldPoly) s.solver.slen fm

/-- The buffers, as (start, length), whose bytes command `i` reads (R58); none if it raises an error. -/
def readBuffers (i : Instr) (s : State) (f : InFlight) : List (Nat × Nat) :=
  if (errorOf i s f).isSome then []
  else
    match i with
    | .add _ _ => []
    | .mul _ _ => []
    | .div _ _ => []
    | .inv _ => []
    | .mac _ => [(f.srcNat, f.lenNat), (f.dstNat, f.lenNat)]
    | .sclr => []
    | .swid _ => []
    | .sins => [(f.coefNat, s.solver.width), (f.srcNat, f.lenNat)]
    | .ssol => []

/-- The buffer, as (start, length), whose bytes command `i` writes (R58); length 0 where it writes none. -/
def writtenBuffer (i : Instr) (s : State) (f : InFlight) : Nat × Nat :=
  if (errorOf i s f).isSome then (0, 0)
  else
    match i with
    | .add _ _ => (0, 0)
    | .mul _ _ => (0, 0)
    | .div _ _ => (0, 0)
    | .inv _ => (0, 0)
    | .mac _ => (f.dstNat, f.lenNat)
    | .sclr => (0, 0)
    | .swid _ => (0, 0)
    | .sins => (0, 0)
    | .ssol => (f.dstNat, s.solver.width * s.solver.slen)

/-- The byte at `a` lies in the buffer. -/
def inBuffer (a : Nat) (b : Nat × Nat) : Bool := decide (b.1 ≤ a ∧ a < b.1 + b.2)

/-- The buffers the command in flight reads (R58). An illegal word has an empty footprint. -/
def State.readFootprint (s : State) : List (Nat × Nat) :=
  match s.inflight with
  | none => []
  | some f =>
    match decode f.word with
    | .error _ => []
    | .ok i => readBuffers i s f

/-- The buffer the command in flight writes (R58). -/
def State.writtenFootprint (s : State) : Nat × Nat :=
  match s.inflight with
  | none => (0, 0)
  | some f =>
    match decode f.word with
    | .error _ => (0, 0)
    | .ok i => writtenBuffer i s f

/-- R60: a host read of byte `a` would race: the command in flight writes it. -/
def State.readRaces (a : Nat) (s : State) : Bool := inBuffer a s.writtenFootprint

/-- R60: a host write of byte `a` would race: it lies in the footprint of the command in flight. -/
def State.writeRaces (a : Nat) (s : State) : Bool :=
  inBuffer a s.writtenFootprint || s.readFootprint.any (inBuffer a)

/-- R121: the written footprint of the command that reset abandons holds free bytes, one draw each. -/
def State.abandon (s : State) : State :=
  { s with
    mem := s.mem.scramble s.writtenFootprint.1 s.draws s.writtenFootprint.2
    draws := s.draws + s.writtenFootprint.2 }

end Sys2Proof.Machine
end

