-- ==== Sys2Proof/Machine/Buffer.lean ====
section
/-! DEFINITION. The buffer command MAC (41_field_buffer.md R89 to R91). -/

namespace Sys2Proof.Machine

/-- R89: the checks, then `dst[i] <- dst[i] ^ gf_mul(c, src[i])` in ascending order, from the progress the command in
flight has made. -/
def execMac (c : Byte) (s : State) : Host.Outcome State Fault Refusal :=
  s.conclude (macError s.cfg (s.flight (.mac c)))
    (s.setMem
      (runAccesses (macAccess s.cfg.fieldPoly c) (3 * (s.flight (.mac c)).lenNat) (s.flight (.mac c)) s.mem).2)

end Sys2Proof.Machine
end

