-- ==== Sys2Proof/Machine/Scalar.lean ====
section
/-! DEFINITION. The scalar field commands ADD, MUL, DIV and INV (40_field_scalar.md R85 to R88). -/

namespace Sys2Proof.Machine

/-- R85: `x[RESULT] <- zext_32(gf_add(a, b))`. -/
def execAdd (a b : Byte) (s : State) : Host.Outcome State Fault Refusal :=
  s.conclude none (s.setResult (gfAdd a b))

/-- R86: `x[RESULT] <- zext_32(gf_mul(a, b))`. -/
def execMul (a b : Byte) (s : State) : Host.Outcome State Fault Refusal :=
  s.conclude none (s.setResult (gfMul s.cfg.fieldPoly a b))

/-- R87: DIV_ZERO if b = 0, else `x[RESULT] <- zext_32(gf_div(a, b))`. -/
def execDiv (a b : Byte) (s : State) : Host.Outcome State Fault Refusal :=
  s.conclude (divError b) (s.setResult (gfDiv s.cfg.fieldPoly a b))

/-- R88: DIV_ZERO if a = 0, else `x[RESULT] <- zext_32(gf_inv(a))`. -/
def execInv (a : Byte) (s : State) : Host.Outcome State Fault Refusal :=
  s.conclude (invError a) (s.setResult (gfInv s.cfg.fieldPoly a))

end Sys2Proof.Machine
end

