-- ==== Sys2Proof/Machine/SolverCommands.lean ====
section
/-! DEFINITION. The solver commands SCLR, SWID, SINS and SSOL (42_solver.md R96 to R99). -/

namespace Sys2Proof.Machine

/-- R96: `(W, rows, SLEN, DEP) <- (0, [], 0, 0)`. -/
def execSclr (s : State) : Host.Outcome State Fault Refusal :=
  s.conclude none (s.setSolver Solver.clear)

/-- R97: the checks, then every row is zero-padded and W becomes n. -/
def execSwid (n : Nat) (s : State) : Host.Outcome State Fault Refusal :=
  s.conclude (swidError s.cfg s.solver n) (s.setSolver (s.solver.grow n))

/-- R98: the candidate row of the bytes read: W coefficients, then the payload. -/
def candidate (w : Nat) (bytes : List Byte) : Row := { coef := bytes.take w, payload := bytes.drop w }

/-- R98: the checks, then the two vectors are read and the row is appended or found dependent. -/
def execSins (s : State) : Host.Outcome State Fault Refusal :=
  s.conclude (sinsError s.cfg s.solver (s.flight .sins))
    (s.setSolver
      (s.solver.insertRow s.cfg.fieldPoly (s.flight .sins).lenNat
        (candidate s.solver.width
          (runAccesses (sinsAccess s.solver.width) (s.solver.width + (s.flight .sins).lenNat) (s.flight .sins)
            s.mem).1.fetched)))

/-- R99: the checks, then the solution is written in window order and the solver is cleared. -/
def execSsol (s : State) : Host.Outcome State Fault Refusal :=
  s.conclude (ssolError s.cfg s.solver (s.flight .ssol))
    ((s.setMem
      (runAccesses (ssolAccess (s.solver.solution s.cfg.fieldPoly) s.solver.slen) (s.solver.width * s.solver.slen)
        (s.flight .ssol) s.mem).2).setSolver Solver.clear)

end Sys2Proof.Machine
end

