-- ==== Sys2Proof/Machine/Dispatch.lean ====
section
/-! DEFINITION. What each command does, from its issue to its completion (20_memory.md R59, log 2). -/

namespace Sys2Proof.Machine

def exec (i : Instr) (s : State) : Host.Outcome State Fault Refusal :=
  match i with
  -- the scalar field commands
  | .add a b => Sys2Proof.Machine.execAdd a b s
  | .mul a b => Sys2Proof.Machine.execMul a b s
  | .div a b => Sys2Proof.Machine.execDiv a b s
  | .inv a => Sys2Proof.Machine.execInv a s
  -- the buffer command
  | .mac c => Sys2Proof.Machine.execMac c s
  -- the solver commands
  | .sclr => Sys2Proof.Machine.execSclr s
  | .swid n => Sys2Proof.Machine.execSwid n s
  | .sins => Sys2Proof.Machine.execSins s
  | .ssol => Sys2Proof.Machine.execSsol s

end Sys2Proof.Machine
end

