-- ==== Sys2Proof/Machine/Engine.lean ====
section
/-! DEFINITION. The command engine (00_scope.md R6): its next step, and its remaining steps taken together
(20_memory.md R56, R59). -/

namespace Sys2Proof.Machine

/-- The engine's next step (R56): one unit access while accesses remain, else the completion. An illegal word makes no
access and completes with ILLEGAL (R110). With nothing in flight the unit is idle and keeps its state (R118). -/
def engineStep (s : State) : Host.Outcome State Fault Refusal :=
  match s.inflight with
  | none => .next s
  | some f =>
    match decode f.word with
    | .error _ => .next (s.errorCompletion .illegal)
    | .ok i =>
      if f.made < accessTotal i s f then
        .next ((s.setMem (accessOnce i s (f, s.mem)).2).setInflight (accessOnce i s (f, s.mem)).1)
      else exec i s

/-- The engine's remaining steps up to and with the completion, taken together (log 2). -/
def engineRun (s : State) : Host.Outcome State Fault Refusal :=
  match s.inflight with
  | none => .next s
  | some f =>
    match decode f.word with
    | .error _ => .next (s.errorCompletion .illegal)
    | .ok i => exec i s

end Sys2Proof.Machine
end

