-- ==== Sys2Proof/Machine/Flags.lean ====
section
/-! DEFINITION. STATUS and CTRL as software sees them, the write-1-to-clear rule, and the interrupt output
(10_state.md R20 to R27, 60_exceptions.md R111, R112). -/

namespace Sys2Proof.Machine

/-- STATUS: bit 0 BUSY, 1 DONE, 2 ERR, 3 OVR, 4 DEP, 5 FULL, the rest 0 (R21 to R27). -/
def State.statusWord (s : State) : Word :=
  0#26 ++ BitVec.ofBool s.solver.full ++ BitVec.ofBool s.solver.dep ++ BitVec.ofBool s.ovr ++
    BitVec.ofBool s.err ++ BitVec.ofBool s.done ++ BitVec.ofBool s.busy

/-- CTRL: bit 0 DONE_IE, bit 1 ERR_IE, the rest 0 (R20). -/
def State.ctrlWord (s : State) : Word := 0#30 ++ BitVec.ofBool s.errIe ++ BitVec.ofBool s.doneIe

/-- A write to CTRL keeps bits 1:0 (R20). -/
def State.writeCtrl (v : Word) (s : State) : State :=
  { s with doneIe := v.getLsbD 0, errIe := v.getLsbD 1 }

/-- A write to STATUS: writing 1 clears DONE, ERR, OVR; every other bit is ignored (R22 to R24, R27). This is also how the
host acknowledges an interrupt (R112). -/
def State.writeStatus (v : Word) (s : State) : State :=
  { s with done := s.done && !v.getLsbD 1, err := s.err && !v.getLsbD 2, ovr := s.ovr && !v.getLsbD 3 }

/-- STATUS.OVR set by a dropped write (R24, R109). -/
def State.setOvr (s : State) : State := { s with ovr := true }

/-- The code of an error in ERRCODE bits 3:0 (R104). -/
def ErrCode.bits : ErrCode → BitVec 4
  | .noError => 0
  | .illegal => 1
  | .divZero => 2
  | .range => 3
  | .overlap => 4
  | .widthShrink => 5
  | .widthOverflow => 6
  | .lenOverflow => 7
  | .lenMismatch => 8
  | .notFull => 9

/-- R111: the interrupt output, a level. -/
def State.irq (s : State) : Bool := (s.doneIe && s.done) || (s.errIe && (s.err || s.ovr))

end Sys2Proof.Machine
end

