-- ==== Sys2Proof/Machine/HostAccess.lean ====
section
/-! DEFINITION. The host's steps: register reads and writes (10_state.md R15 to R43), buffer-memory accesses with the race
rule (20_memory.md R60), and the `rst` input (70_reset_and_hazards.md R119 to R122). -/

namespace Sys2Proof.Machine

/-- The registers of the block (R15). -/
inductive Reg where
  | id | poly | maxcols | maxsym | ctrl | status | errcode | cmd | result | dst | src | coef | len | width | rank | slen
  deriving DecidableEq, Repr

/-- The offset of a register in the block (R15). -/
def Reg.offset : Reg → Nat
  | .id => 0x00
  | .poly => 0x04
  | .maxcols => 0x08
  | .maxsym => 0x0C
  | .ctrl => 0x10
  | .status => 0x14
  | .errcode => 0x18
  | .cmd => 0x1C
  | .result => 0x20
  | .dst => 0x24
  | .src => 0x28
  | .coef => 0x2C
  | .len => 0x30
  | .width => 0x34
  | .rank => 0x38
  | .slen => 0x3C

/-- Every register of R15. -/
def allRegs : List Reg :=
  [.id, .poly, .maxcols, .maxsym, .ctrl, .status, .errcode, .cmd, .result, .dst, .src, .coef, .len, .width, .rank, .slen]

/-- The register at an offset; none at a reserved one (R41). -/
def regAt (off : Nat) : Option Reg := allRegs.find? fun r => r.offset == off

/-- The SLEN register: 0 while RANK = 0 (R37). -/
def Solver.slenView (sv : Solver) : Nat := if sv.rows.length = 0 then 0 else sv.slen

/-- What a read of a register returns (R16 to R37). CMD reads 0 (R29). No read has a side effect (R42). -/
def State.readReg (r : Reg) (s : State) : Word :=
  match r with
  | .id => 0x47465531
  | .poly => s.cfg.fieldPoly.setWidth 32
  | .maxcols => (BitVec.ofNat 16 s.cfg.maxCols).setWidth 32
  | .maxsym => BitVec.ofNat 32 s.cfg.maxSym
  | .ctrl => s.ctrlWord
  | .status => s.statusWord
  | .errcode => s.errcode.bits.setWidth 32
  | .cmd => 0x00000000
  | .result => s.result.setWidth 32
  | .dst => s.dst
  | .src => s.src
  | .coef => s.coef
  | .len => s.len
  | .width => (BitVec.ofNat 16 s.solver.width).setWidth 32
  | .rank => (BitVec.ofNat 16 s.solver.rows.length).setWidth 32
  | .slen => BitVec.ofNat 32 s.solver.slenView

/-- R43: a write to CMD, DST, SRC, COEF or LEN while BUSY = 1 is dropped and sets OVR. -/
def State.unlessBusy (s t : State) : State := if s.busy then s.setOvr else t

/-- What a write to a register does (R16 to R37, R42, R43). A write to CMD while idle is an issue (R29). -/
def State.writeReg (r : Reg) (v : Word) (s : State) : State :=
  match r with
  | .id => s
  | .poly => s
  | .maxcols => s
  | .maxsym => s
  | .ctrl => s.writeCtrl v
  | .status => s.writeStatus v
  | .errcode => s
  | .cmd => s.unlessBusy (s.issue v)
  | .result => s
  | .dst => s.unlessBusy { s with dst := v }
  | .src => s.unlessBusy { s with src := v }
  | .coef => s.unlessBusy { s with coef := v }
  | .len => s.unlessBusy { s with len := v }
  | .width => s
  | .rank => s
  | .slen => s

/-- A read at an offset of the block; a reserved one reads 0 (R41). -/
def State.readOffset (off : Nat) (s : State) : Word :=
  match regAt off with
  | some r => s.readReg r
  | none => 0x00000000

/-- A write at an offset of the block; at a reserved one it is ignored (R41). -/
def State.writeOffset (off : Nat) (v : Word) (s : State) : State :=
  match regAt off with
  | some r => s.writeReg r v
  | none => s

/-- Why a host access of `bytes` bytes at host address `addr` has no meaning: not the unit's address (R15, R54), `rst`
asserted (R122), not 32 bits wide at a multiple of 4 (R51). -/
def State.busRefusal (addr bytes : Nat) (s : State) : Option Refusal :=
  if addr < s.cfg.gfuBase ∨ s.cfg.gfuBase + 256 ≤ addr then some .outsideRegisterBlock
  else if s.rst then some .accessDuringReset
  else if bytes ≠ 4 ∨ (addr - s.cfg.gfuBase) % 4 ≠ 0 then some .accessShape
  else none

/-- A host register read: the value goes to `readData` (log 7). -/
def busRead (addr bytes : Nat) (s : State) : Host.Outcome State Fault Refusal :=
  match s.busRefusal addr bytes with
  | some r => .refused r
  | none => .next (s.setReadData (s.readOffset (addr - s.cfg.gfuBase)))

/-- A host register write. -/
def busWrite (addr bytes : Nat) (v : Word) (s : State) : Host.Outcome State Fault Refusal :=
  match s.busRefusal addr bytes with
  | some r => .refused r
  | none => .next (s.writeOffset (addr - s.cfg.gfuBase) v)

/-- A host read of one byte of buffer memory (R56, R60). -/
def hostRead (a : Nat) (s : State) : Host.Outcome State Fault Refusal :=
  if s.cfg.memSize ≤ a then .fault (.noSuchByte a)
  else if s.readRaces a then .fault (.hostRace a)
  else .next (s.setReadData ((s.mem.read a).setWidth 32))

/-- A host write of one byte of buffer memory (R56, R60). -/
def hostWrite (a : Nat) (v : Byte) (s : State) : Host.Outcome State Fault Refusal :=
  if s.cfg.memSize ≤ a then .fault (.noSuchByte a)
  else if s.writeRaces a then .fault (.hostRace a)
  else .next (s.setMem (s.mem.write a v))

/-- The `rst` input driven to a level: asserted, it abandons the command in flight (R121) and resets the unit (R119);
deasserted after that, it resets the unit once more (R119: "and at the moment it is deasserted"). -/
def State.setRst (level : Bool) (s : State) : State :=
  if level then { s.abandon.resetUnit with rst := true }
  else if s.rst then { s.resetUnit with rst := false }
  else s

/-- One step of the global order (R56): the agent the turn names moves. -/
def takeTurn (t : Turn) (s : State) : Host.Outcome State Fault Refusal :=
  match t with
  | .busRead addr bytes => busRead addr bytes s
  | .busWrite addr bytes v => busWrite addr bytes v s
  | .memRead a => hostRead a s
  | .memWrite a v => hostWrite a v s
  | .engine => engineStep s
  | .command => engineRun s
  | .rst level => .next (s.setRst level)

end Sys2Proof.Machine
end

