-- ==== Sys2Proof/Machine/Step.lean ====
section
/-! DEFINITION. One step of the global order of 20_memory.md R56, and how a command word is placed for the next step. -/

namespace Sys2Proof.Machine

/-- One step: the next listed turn, or, with none listed, the engine's (log 1; R131: a command in flight completes). -/
def step (s : State) : Host.Outcome State Fault Refusal :=
  match s.turns with
  | [] => engineStep s
  | t :: rest => takeTurn t (s.setTurns rest)

/-- `s` with the command word issued (R21) and the engine to run it next (log 17). The unit fetches nothing (R63): a word
reaches it by a write to CMD, and this is the state that write leaves, with `rst` deasserted. -/
def State.withFetchWord (s : State) (nbits w : Nat) : State :=
  { s.issue (tableWord nbits w) with rst := false, turns := .command :: s.turns }

end Sys2Proof.Machine
end

