-- ==== Sys2Proof/Machine/Assembly.lean ====
section
/-! DEFINITION. The notation of commands: the canonical disassembly of R77 and the command syntax of R73 (30_encoding.md).
Texts are lists of characters. -/

namespace Sys2Proof.Machine

/-- The mnemonic of a command (R67). -/
def mnemonic : Instr → List Char
  | .add _ _ => ['A', 'D', 'D']
  | .mul _ _ => ['M', 'U', 'L']
  | .div _ _ => ['D', 'I', 'V']
  | .inv _ => ['I', 'N', 'V']
  | .mac _ => ['M', 'A', 'C']
  | .sclr => ['S', 'C', 'L', 'R']
  | .swid _ => ['S', 'W', 'I', 'D']
  | .sins => ['S', 'I', 'N', 'S']
  | .ssol => ['S', 'S', 'O', 'L']

/-- One hexadecimal digit; `ten` is the code of the digit ten, 'a' or 'A'. -/
def hexDigit (ten k : Nat) : Char := if k < 10 then Char.ofNat (48 + k) else Char.ofNat (ten + (k - 10))

/-- The low `digits` hexadecimal digits of a number, the highest first. -/
def hexDigits (ten : Nat) : Nat → Nat → List Char
  | 0, _ => []
  | digits + 1, n => hexDigits ten digits (n / 16) ++ [hexDigit ten (n % 16)]

/-- A used field: `0x` and its digits in lower case (R77). -/
def hexField (digits n : Nat) : List Char := ['0', 'x'] ++ hexDigits 97 digits n

/-- R77: the mnemonic followed by the used fields, two digits each, four for N. -/
def commandText (i : Instr) : List Char :=
  match i with
  | .add a b => mnemonic i ++ [' '] ++ hexField 2 a.toNat ++ [',', ' '] ++ hexField 2 b.toNat
  | .mul a b => mnemonic i ++ [' '] ++ hexField 2 a.toNat ++ [',', ' '] ++ hexField 2 b.toNat
  | .div a b => mnemonic i ++ [' '] ++ hexField 2 a.toNat ++ [',', ' '] ++ hexField 2 b.toNat
  | .inv a => mnemonic i ++ [' '] ++ hexField 2 a.toNat
  | .mac c => mnemonic i ++ [' '] ++ hexField 2 c.toNat
  | .sclr => mnemonic i
  | .swid n => mnemonic i ++ [' '] ++ hexField 4 n
  | .sins => mnemonic i
  | .ssol => mnemonic i

/-- R77: the canonical disassembly of a word. The digits of `.word` are in upper case, as 95_test_vectors.md writes them
(log 19). -/
def disassemble (w : Word) : List Char :=
  match decode w with
  | .ok i => commandText i
  | .error _ => ['.', 'w', 'o', 'r', 'd', ' ', '0', 'x'] ++ hexDigits 65 8 w.toNat

/-- Why a line is no command (R73). -/
inductive AsmError where
  /-- No command has this mnemonic. -/
  | unknownMnemonic
  /-- The number of operands is not the command's. -/
  | wrongOperandCount
  /-- An operand is neither a decimal nor a hexadecimal literal. -/
  | badLiteral
  /-- A literal does not fit its field: "an assembly error, not a truncation". -/
  | doesNotFit
  deriving DecidableEq, Repr

/-- Blank space (log 20). -/
def isBlank (c : Char) : Bool := c == ' ' || c == '\t'

/-- A text without the blanks at its ends. -/
def trimBlanks (t : List Char) : List Char := ((t.dropWhile isBlank).reverse.dropWhile isBlank).reverse

/-- The parts of a text between commas. -/
def splitAtCommas : List Char → List (List Char)
  | [] => [[]]
  | c :: t =>
    if c == ',' then [] :: splitAtCommas t
    else
      match splitAtCommas t with
      | [] => [[c]]
      | part :: parts => (c :: part) :: parts

/-- The value of a digit in any base up to 16, in either case. -/
def digitValue (c : Char) : Option Nat :=
  if '0' ≤ c ∧ c ≤ '9' then some (c.toNat - 48)
  else if 'a' ≤ c ∧ c ≤ 'f' then some (c.toNat - 87)
  else if 'A' ≤ c ∧ c ≤ 'F' then some (c.toNat - 55)
  else none

/-- One more digit of a number. -/
def pushDigit (base : Nat) (acc : Option Nat) (c : Char) : Option Nat :=
  match acc, digitValue c with
  | some n, some d => if d < base then some (n * base + d) else none
  | _, _ => none

/-- A nonempty string of digits. -/
def digitsValue (base : Nat) : List Char → Option Nat
  | [] => none
  | c :: t => (c :: t).foldl (pushDigit base) (some 0)

/-- A literal, decimal or hexadecimal (R73). -/
def literal : List Char → Option Nat
  | '0' :: 'x' :: ds => digitsValue 16 ds
  | ds => digitsValue 10 ds

/-- An 8-bit operand (R73). -/
def byteOperand (t : List Char) : Except AsmError Byte :=
  match literal t with
  | none => .error .badLiteral
  | some n => if n < 2 ^ 8 then .ok (BitVec.ofNat 8 n) else .error .doesNotFit

/-- The 16-bit operand of SWID (R73). -/
def widthOperand (t : List Char) : Except AsmError Nat :=
  match literal t with
  | none => .error .badLiteral
  | some n => if n < 2 ^ 16 then .ok n else .error .doesNotFit

/-- A command without operands. -/
def noOperand (i : Instr) : List (List Char) → Except AsmError Instr
  | [] => .ok i
  | _ => .error .wrongOperandCount

/-- A command with one 8-bit operand. -/
def oneByte (mk : Byte → Instr) : List (List Char) → Except AsmError Instr
  | [a] =>
    match byteOperand a with
    | .ok x => .ok (mk x)
    | .error e => .error e
  | _ => .error .wrongOperandCount

/-- A command with two 8-bit operands. -/
def twoBytes (mk : Byte → Byte → Instr) : List (List Char) → Except AsmError Instr
  | [a, b] =>
    match byteOperand a, byteOperand b with
    | .ok x, .ok y => .ok (mk x y)
    | .error e, _ => .error e
    | .ok _, .error e => .error e
  | _ => .error .wrongOperandCount

/-- SWID with its 16-bit operand. -/
def oneWidth : List (List Char) → Except AsmError Instr
  | [a] =>
    match widthOperand a with
    | .ok n => .ok (.swid n)
    | .error e => .error e
  | _ => .error .wrongOperandCount

/-- The command of an upper-case mnemonic and its operands (R73). -/
def buildCommand (m : List Char) (ops : List (List Char)) : Except AsmError Instr :=
  if m = ['A', 'D', 'D'] then twoBytes .add ops
  else if m = ['M', 'U', 'L'] then twoBytes .mul ops
  else if m = ['D', 'I', 'V'] then twoBytes .div ops
  else if m = ['I', 'N', 'V'] then oneByte .inv ops
  else if m = ['M', 'A', 'C'] then oneByte .mac ops
  else if m = ['S', 'C', 'L', 'R'] then noOperand .sclr ops
  else if m = ['S', 'W', 'I', 'D'] then oneWidth ops
  else if m = ['S', 'I', 'N', 'S'] then noOperand .sins ops
  else if m = ['S', 'S', 'O', 'L'] then noOperand .ssol ops
  else .error .unknownMnemonic

/-- The operands of a command: what follows the mnemonic, split at commas. -/
def operandTexts (t : List Char) : List (List Char) :=
  if trimBlanks t = [] then [] else (splitAtCommas t).map trimBlanks

/-- R73: the command of one line. Mnemonics are case-insensitive and `;` starts a comment. -/
def assemble (line : List Char) : Except AsmError Instr :=
  let code := trimBlanks (line.takeWhile (· != ';'))
  buildCommand ((code.takeWhile fun c => !isBlank c).map Char.toUpper) (operandTexts (code.dropWhile fun c => !isBlank c))

end Sys2Proof.Machine
end

