-- ==== Sys2Proof/Machine/Pseudo.lean ====
section
/-! DEFINITION. The pseudo-instructions of R75 as the host accesses they expand to (30_encoding.md R74, R75). -/

namespace Sys2Proof.Machine

/-- The pseudo-instructions (R75). -/
inductive Pseudo where
  /-- `SUB a, b`. -/
  | sub (a b : Byte)
  /-- `BZERO`. -/
  | bzero
  /-- `BSCALE k`. -/
  | bscale (k : Byte)
  /-- `BCOPY`. -/
  | bcopy
  /-- `BDIV k`, k != 0. -/
  | bdiv (k : Byte)
  /-- `BSUBW c`. -/
  | bsubw (c : Byte)
  deriving DecidableEq, Repr

/-- `WR REG, v` (R74). -/
def hostWr (cfg : Config) (r : Reg) (v : Word) : Turn := .busWrite (cfg.gfuBase + r.offset) 4 v

/-- `RD REG -> t` (R74). -/
def hostRd (cfg : Config) (r : Reg) : Turn := .busRead (cfg.gfuBase + r.offset) 4

/-- A command issued, then WAIT: it completes, and the last poll of STATUS reads BUSY = 0 (R74, R124). The polls before that
have no side effect (R42). -/
def hostCommand (cfg : Config) (i : Instr) : List Turn :=
  [hostWr cfg .cmd (encode i), .command, hostRd cfg .status]

/-- `BSCALE k` where DST holds `d`: `WR SRC, d` and `MAC (k ^ 0x01)` (R75). -/
def bscaleTurns (cfg : Config) (d : Word) (k : Byte) : List Turn :=
  hostWr cfg .src d :: hostCommand cfg (.mac (k ^^^ 0x01#8))

/-- The expansion of a pseudo-instruction (R75) from the state `s`, whose DST and SRC the host knows or reads. BDIV reads
the inverse of `k` from RESULT; the value it reads there is R88's (log 18). -/
def Pseudo.turns (ps : Pseudo) (s : State) : List Turn :=
  match ps with
  | .sub a b => hostCommand s.cfg (.add a b)
  | .bzero => hostWr s.cfg .src s.dst :: hostCommand s.cfg (.mac 0x01#8)
  | .bscale k => bscaleTurns s.cfg s.dst k
  | .bcopy =>
    [hostRd s.cfg .src, hostWr s.cfg .src s.dst] ++ hostCommand s.cfg (.mac 0x01#8) ++
      [hostWr s.cfg .src s.src] ++ hostCommand s.cfg (.mac 0x01#8)
  | .bdiv k =>
    hostCommand s.cfg (.inv k) ++ [hostRd s.cfg .result] ++ bscaleTurns s.cfg s.dst (gfInv s.cfg.fieldPoly k)
  | .bsubw c => hostCommand s.cfg (.mac c)

end Sys2Proof.Machine
end

