-- ==== Sys2Proof/Safety.lean ====
section
/-! DEFINITION. The invariants a run keeps, in the terms claims use: the shape of the state, and the solver invariants of
10_state.md R40. -/

namespace Sys2Proof.Machine

/-- Whatever is in flight has just been issued: no access made yet, its operands those of the registers (R44). True too
where nothing is in flight. -/
def State.JustIssued (s : State) : Prop := ∀ f, s.inflight = some f → f = s.freshFlight f.word

/-- The operands of the command in flight are those of the registers, which cannot change while it exists (R43, R44). -/
def InFlight.latches (f : InFlight) (s : State) : Prop :=
  f.dst = s.dst ∧ f.src = s.src ∧ f.coef = s.coef ∧ f.len = s.len

/-- The progress of the command in flight: no more accesses than it makes, an illegal word makes none, and SINS holds every
byte it has read (R44, R58). -/
def InFlight.progressOk (f : InFlight) (s : State) : Prop :=
  match decode f.word with
  | .error _ => f.made = 0 ∧ f.fetched = []
  | .ok i => f.made ≤ accessTotal i s f ∧ (i = .sins → f.fetched.length = f.made)

/-- Every register reads its reset value, the solver is clear, nothing is in flight and `irq` is low (the table of R119). -/
def State.AtReset (s : State) : Prop :=
  s.readReg .id = 0x47465531 ∧ s.readReg .poly = s.cfg.fieldPoly.setWidth 32 ∧
  s.readReg .maxcols = (BitVec.ofNat 16 s.cfg.maxCols).setWidth 32 ∧ s.readReg .maxsym = BitVec.ofNat 32 s.cfg.maxSym ∧
  (∀ r : Reg, r ≠ .id → r ≠ .poly → r ≠ .maxcols → r ≠ .maxsym → s.readReg r = 0x00000000) ∧
  s.solver = { width := 0, rows := [], slen := 0, dep := false } ∧ s.inflight = none ∧ s.irq = false

/-- The shape every reachable state has. -/
structure State.Inv (s : State) : Prop where
  /-- The parameters have legal values (R7 to R11). -/
  cfgLegal : s.cfg.Legal
  /-- Memory is in its canonical form (log 5). -/
  memSorted : s.mem.wf
  /-- Memory lists only bytes that exist (R46). -/
  memInside : ∀ c ∈ s.mem, c.1 < s.cfg.memSize
  /-- W <= MAX_COLS (R38, R40 I1). -/
  widthBound : s.solver.width ≤ s.cfg.maxCols
  /-- Every coefficient vector is in GF^W (R38). -/
  coefLength : ∀ r ∈ s.solver.rows, r.coef.length = s.solver.width
  /-- Every payload has length SLEN (R40 I3). -/
  payloadLength : ∀ r ∈ s.solver.rows, r.payload.length = s.solver.slen
  /-- SLEN <= MAX_SYM (R40 I3). -/
  slenBound : s.solver.slen ≤ s.cfg.maxSym
  /-- No payload length is latched while no row is held (R38, R98). -/
  slenClear : s.solver.rows = [] → s.solver.slen = 0
  /-- While a command is in flight DONE is 0: issue clears it and only completion sets it (R21, R22). -/
  busyNotDone : s.inflight.isSome = true → s.done = false
  /-- The command in flight uses the operands the registers hold (R43, R44). -/
  latched : ∀ f, s.inflight = some f → f.latches s
  /-- The progress of the command in flight (R44). -/
  progress : ∀ f, s.inflight = some f → f.progressOk s
  /-- While `rst` is asserted every piece of state has its reset value (R119). -/
  heldInReset : s.rst = true → s.resetUnit = s

/-- R40: the solver invariants I1 to I4. -/
structure State.SolverInv (s : State) : Prop where
  /-- I1: RANK <= W <= MAX_COLS. -/
  rankBound : s.solver.rows.length ≤ s.solver.width ∧ s.solver.width ≤ s.cfg.maxCols
  /-- I2: the coefficient vectors are linearly independent. -/
  independent : Independent s.cfg.fieldPoly s.solver.width (s.solver.rows.map Row.coef)
  /-- I3: every payload has length SLEN, and SLEN <= MAX_SYM. -/
  payloads : (∀ r ∈ s.solver.rows, r.payload.length = s.solver.slen) ∧ s.solver.slen ≤ s.cfg.maxSym
  /-- I4: if RANK = W > 0, the matrix of coefficient vectors is invertible. -/
  invertible : s.solver.full = true → Invertible s.cfg.fieldPoly s.solver.width (s.solver.rows.map Row.coef)

end Sys2Proof.Machine
end

