-- ==== Sys2Proof/Certificates/Slice0/Obligations.lean ====
section
/-! DEFINITION. The statements for the provers, each from a numbered rule of the spec. -/

open Sys2Proof Sys2Proof.Machine

/-- A word with opcode `opc` and a 1 bit under `zeros` (the fields that must be 0) is ILLEGAL (R70). -/
def Sys2Proof.zeroFieldsChecked (opc : BitVec 8) (zeros : Word) : Prop :=
  ∀ w : Word, opcField w = opc → w &&& zeros ≠ 0#32 → decode w = .error .fieldNotZero

/-- R79: the polynomial over GF(2) a bit vector stands for, bit i the coefficient of x^i. -/
noncomputable def Sys2Proof.bitPoly {n : Nat} (v : BitVec n) : Polynomial (ZMod 2) :=
  ∑ i ∈ Finset.range n, if v.getLsbD i then Polynomial.X ^ i else 0

/-! ### Encoding -/

/-- R78: the worked encodings, both ways, and the illegal examples. -/
def Obligations.WorkedEncodings : Prop :=
  (∀ x ∈ ([(.add 0x53 0xca, 0x0153CA00), (.mul 0x53 0xca, 0x0253CA00), (.div 0x01 0x02, 0x03010200),
      (.inv 0x02, 0x04020000), (.mac 0x1d, 0x081D0000), (.sclr, 0x10000000), (.swid 3, 0x11000003),
      (.sins, 0x12000000), (.ssol, 0x13000000)] : List (Instr × Word)),
    encode x.1 = x.2 ∧ decode x.2 = .ok x.1) ∧
  (∀ w ∈ ([0x00000000, 0x14000000] : List Word), decode w = .error .reservedOpcode) ∧
  ∀ w ∈ ([0x01000001, 0x04020100, 0x11010003] : List Word), decode w = .error .fieldNotZero

/-- R76: the words of the commands, and that decoding and encoding undo each other. -/
def Obligations.DecodeEncodeRoundTrip : Prop :=
  (∀ a b : Byte,
    encode (.add a b) = 0x01#8 ++ a ++ b ++ 0x00#8 ∧ encode (.mul a b) = 0x02#8 ++ a ++ b ++ 0x00#8 ∧
    encode (.div a b) = 0x03#8 ++ a ++ b ++ 0x00#8 ∧ encode (.inv a) = 0x04#8 ++ a ++ 0x00#8 ++ 0x00#8 ∧
    encode (.mac a) = 0x08#8 ++ a ++ 0x00#8 ++ 0x00#8) ∧
  (encode .sclr = 0x10000000 ∧ encode .sins = 0x12000000 ∧ encode .ssol = 0x13000000 ∧
    ∀ n, encode (.swid n) = 0x11#8 ++ 0x00#8 ++ BitVec.ofNat 16 n) ∧
  (∀ i : Instr, i.wf = true → decode (encode i) = .ok i) ∧
  ∀ (w : Word) (i : Instr), decode w = .ok i → i.wf = true ∧ encode i = w

/-- R67: a word decodes to a command exactly when it selects a row by mask and match, and no two rows select one word. -/
def Obligations.OpcodeMapSelects : Prop :=
  (∀ (w : Word) (i : Instr), decode w = .ok i → w &&& tableMask i = tableMatch i) ∧
  (∀ (w : Word) (i : Instr), w &&& tableMask i = tableMatch i →
    ∃ j, decode w = .ok j ∧ tableMatch j = tableMatch i ∧ tableMask j = tableMask i) ∧
  ∀ (w : Word) (i j : Instr), w &&& tableMask i = tableMatch i → w &&& tableMask j = tableMatch j →
    tableMatch i = tableMatch j

/-- R70: a 1 bit in a field that must be 0 makes the word ILLEGAL. -/
def Obligations.MustBeZeroFieldsChecked : Prop :=
  ∀ (i : Instr) (w : Word), opcField w = opcField (tableMatch i) → w &&& tableMask i ≠ tableMatch i →
    decode w = .error .fieldNotZero

/-- R71: the 247 reserved opcodes are ILLEGAL, and executing such a word raises `Error(ILLEGAL)`. -/
def Obligations.ReservedOpcodesIllegal : Prop :=
  ((List.range 256).filter
    (fun o => o == 0 || (5 ≤ o && o ≤ 7) || (9 ≤ o && o ≤ 15) || 20 ≤ o)).length = 247 ∧
  ∀ w : Word,
    ((opcField w).toNat = 0x00 ∨ (0x05 ≤ (opcField w).toNat ∧ (opcField w).toNat ≤ 0x07) ∨
      (0x09 ≤ (opcField w).toNat ∧ (opcField w).toNat ≤ 0x0F) ∨ 0x14 ≤ (opcField w).toNat) →
    decode w = .error .reservedOpcode ∧
    ∀ (s : State) (f : InFlight) (rest : List Turn), s.inflight = some f → f.word = w → s.turns = .engine :: rest →
      step s = .next { s with turns := rest, inflight := none, done := true, err := true, errcode := .illegal }

/-- R110: an illegal word is issued, and then completes with ILLEGAL and no other effect. -/
def Obligations.IllegalWordCompletes : Prop :=
  ∀ (s : State) (w : Word) (e : Illegal) (rest : List Turn), s.rst = false → s.inflight = none →
    decode w = .error e → s.turns = .busWrite (s.cfg.gfuBase + 0x1C) 4 w :: .engine :: rest →
    ∃ t, step s = .next t ∧ (t.readReg .status).getLsbD 0 = true ∧ (t.readReg .status).getLsbD 1 = false ∧
      step t = .next { s with turns := rest, inflight := none, done := true, err := true, errcode := .illegal }

/-- The notation of R73 reads back the canonical disassembly of R77 (the blanks it allows are log 20). -/
def Obligations.AssembleDisassemble : Prop :=
  ∀ i : Instr, i.wf = true → assemble (disassemble (encode i)) = .ok i

/-! ### Steps -/

/-- A step runs the command in flight: when its word decodes to `i`, the turn that completes it is `exec i` at that state,
less the turn taken; and a placed word is run by the very next step. -/
def Obligations.StepRunsDecodedCommand : Prop :=
  (∀ (s : State) (f : InFlight) (i : Instr) (rest : List Turn), s.inflight = some f → decode f.word = .ok i →
    (s.turns = .command :: rest → step s = exec i { s with turns := rest }) ∧
    (s.turns = .engine :: rest → accessTotal i s f ≤ f.made → step s = exec i { s with turns := rest }) ∧
    (s.turns = [] → accessTotal i s f ≤ f.made → step s = exec i s)) ∧
  ∀ (s : State) (w : Nat) (i : Instr), decode (tableWord 32 w) = .ok i →
    step (s.withFetchWord 32 w) =
      exec i { s with
        rst := false
        done := false
        inflight := some { word := tableWord 32 w, dst := s.dst, src := s.src, coef := s.coef, len := s.len,
                           made := 0, fetched := [] } }

/-- R47, R56: a turn of the engine with accesses left makes one one-byte access. Memory and progress are all it changes,
and MAC and SSOL change one byte of their output, SINS none. -/
def Obligations.UnitAccessIsOneByte : Prop :=
  ∀ (s : State) (f : InFlight) (i : Instr) (rest : List Turn), s.inflight = some f → decode f.word = .ok i →
    s.turns = .engine :: rest → f.made < accessTotal i s f →
    ∃ (t : State) (g : InFlight), step s = .next t ∧ t.inflight = some g ∧
      t = { s with turns := rest, mem := t.mem, inflight := some g } ∧
      g = { f with made := f.made + 1, fetched := g.fetched } ∧
      (∀ c, i = .mac c → ∀ a, (f.made % 3 ≠ 2 ∨ a ≠ f.dst.toNat + f.made / 3) → t.mem.read a = s.mem.read a) ∧
      (i = .sins → t.mem = s.mem) ∧
      (i = .ssol → ∀ a, a ≠ f.dst.toNat + f.made → t.mem.read a = s.mem.read a) ∧
      ∀ a, inBuffer a (writtenBuffer i s f) = false → t.mem.read a = s.mem.read a

/-- R56, R59, R91: the engine's single steps, one access each and then the completion, end where `exec` ends (log 2). -/
def Obligations.FineStepsAgreeWithCommand : Prop :=
  ∀ (s : State) (f : InFlight) (i : Instr) (rest : List Turn), s.inflight = some f → decode f.word = .ok i →
    s.turns = List.replicate (accessTotal i s f - f.made + 1) .engine ++ rest →
    Host.Core.run Sys2Proof.core (accessTotal i s f - f.made + 1) s = exec i { s with turns := rest }

/-- R131: with no host step between, a command in flight completes, within one step per access left and one more. -/
def Obligations.CommandInFlightCompletes : Prop :=
  ∀ (s : State) (f : InFlight), s.inflight = some f → s.turns = [] →
    ∃ (n : Nat) (t : State),
      (∀ i, decode f.word = .ok i → n ≤ accessTotal i s f - f.made + 1) ∧
      (∀ e, decode f.word = .error e → n ≤ 1) ∧
      Host.Core.run Sys2Proof.core n s = .next t ∧ t.inflight = none ∧ t.done = true

/-! ### The field -/

/-- R7: of the polynomials with an x^8 term exactly the sixteen listed give x the multiplicative order 255. -/
def Obligations.LegalPolynomialsArePrimitive : Prop :=
  legalPolys.Nodup ∧ legalPolys.length = 16 ∧
  ∀ p : BitVec 9, p.getLsbD 8 = true →
    (p ∈ legalPolys ↔
      (fun t => gfMul p t 0x02)^[255] 0x01 = 0x01 ∧
      ∀ k, 0 < k → k < 255 → (fun t => gfMul p t 0x02)^[k] 0x01 ≠ 0x01)

/-- R81: gf_mul is the product of the two polynomials, reduced modulo FIELD_POLY. -/
def Obligations.GfMulIsProductModPoly : Prop :=
  ∀ p : BitVec 9, p.getLsbD 8 = true → ∀ a b : Byte,
    bitPoly (gfMul p a b) = (bitPoly a * bitPoly b).modByMonic (bitPoly p)

/-- R84: the additive group, the multiplicative laws and the distributive law, for every legal polynomial. -/
def Obligations.FieldRingLaws : Prop :=
  (∀ a b c : Byte,
    gfAdd a 0 = a ∧ gfAdd a a = 0 ∧ gfAdd a b = gfAdd b a ∧ gfAdd (gfAdd a b) c = gfAdd a (gfAdd b c) ∧
    gfSub a b = gfAdd a b) ∧
  ∀ p ∈ legalPolys, ∀ a b c : Byte,
    gfMul p a b = gfMul p b a ∧ gfMul p (gfMul p a b) c = gfMul p a (gfMul p b c) ∧
    gfMul p a 1 = a ∧ gfMul p a 0 = 0 ∧ (gfMul p a b = 0 ↔ a = 0 ∨ b = 0) ∧
    gfMul p a (gfAdd b c) = gfAdd (gfMul p a b) (gfMul p a c)

/-- R82: gf_inv(a) is the one element whose product with a is 1, and it is a to the power 254. -/
def Obligations.InverseIsUnique : Prop :=
  ∀ p ∈ legalPolys, ∀ a : Byte, a ≠ 0 →
    gfMul p a (gfInv p a) = 1 ∧ (∀ b, gfMul p a b = 1 → b = gfInv p a) ∧
    gfInv p a = (fun t => gfMul p t a)^[254] 0x01

/-- R83, R84: division is multiplication by the inverse, and undoes multiplication. -/
def Obligations.DivisionLaws : Prop :=
  ∀ p ∈ legalPolys, ∀ a b : Byte, b ≠ 0 →
    gfDiv p a b = gfMul p a (gfInv p b) ∧ gfDiv p (gfMul p a b) b = a ∧ gfMul p (gfDiv p a b) b = a ∧
    gfDiv p 0 b = 0 ∧ gfDiv p a 1 = a ∧ gfDiv p b b = 1 ∧ gfInv p (gfInv p b) = b ∧ gfInv p 1 = 1

/-- R84: a product of degree below 8 does not depend on the polynomial, and two values that do. -/
def Obligations.ProductsWithoutReduction : Prop :=
  (∀ (p q : BitVec 9) (a b : Byte) (m n : Nat), a.toNat < 2 ^ (m + 1) → b.toNat < 2 ^ (n + 1) → m + n < 8 →
    gfMul p a b = gfMul q a b) ∧
  (∀ p : BitVec 9, gfMul p 0x03 0x07 = 0x09 ∧ gfMul p 0x02 0x80 = p.setWidth 8) ∧
  ∀ p ∈ legalPolys, (gfInv p 0x02).setWidth 9 = (p ^^^ 0x001) >>> 1

/-! ### The scalar commands -/

/-- R85: ADD. -/
def Obligations.AddWritesXor : Prop :=
  (∀ (a b : Byte) (s : State),
    exec (.add a b) s =
      .next { s with result := a ^^^ b, inflight := none, done := true, errcode := .noError }) ∧
  (∀ (a : Byte), gfAdd a a = 0 ∧ gfAdd a 0 = a) ∧
  (∀ a b : Byte, decode (0x01#8 ++ a ++ b ++ 0x00#8) = .ok (.add a b)) ∧
  zeroFieldsChecked 0x01 0x000000FF ∧ gfAdd 0x53 0xca = 0x99

/-- R86: MUL. -/
def Obligations.MulWritesProduct : Prop :=
  (∀ (a b : Byte) (s : State),
    exec (.mul a b) s =
      .next { s with result := gfMul s.cfg.fieldPoly a b, inflight := none, done := true, errcode := .noError }) ∧
  (∀ (p : BitVec 9) (a b : Byte), gfMul p a 0 = 0 ∧ gfMul p 0 b = 0 ∧ gfMul p a 1 = a ∧
    gfMul p 0x02 0x80 = p.setWidth 8 ∧ gfMul p a b = gfMul p b a) ∧
  (∀ (p q : BitVec 9) (a b : Byte) (m n : Nat), a.toNat < 2 ^ (m + 1) → b.toNat < 2 ^ (n + 1) → m + n < 8 →
    gfMul p a b = gfMul q a b) ∧
  (∀ a b : Byte, decode (0x02#8 ++ a ++ b ++ 0x00#8) = .ok (.mul a b)) ∧
  zeroFieldsChecked 0x02 0x000000FF ∧ gfMul 0x11D 0x53 0xca = 0x8F

/-- R87: DIV, with DIV_ZERO for the divisor 0. -/
def Obligations.DivWritesQuotient : Prop :=
  (∀ (a b : Byte) (s : State), b ≠ 0 →
    exec (.div a b) s =
      .next { s with
        result := gfMul s.cfg.fieldPoly a (gfInv s.cfg.fieldPoly b)
        inflight := none
        done := true
        errcode := .noError }) ∧
  (∀ (a : Byte) (s : State),
    exec (.div a 0) s = .next { s with inflight := none, done := true, err := true, errcode := .divZero }) ∧
  (∀ p ∈ legalPolys, ∀ a b : Byte, (b ≠ 0 → gfDiv p 0 b = 0) ∧ gfDiv p a 1 = a ∧ (a ≠ 0 → gfDiv p a a = 1)) ∧
  (∀ a b : Byte, decode (0x03#8 ++ a ++ b ++ 0x00#8) = .ok (.div a b)) ∧
  zeroFieldsChecked 0x03 0x000000FF ∧ gfDiv 0x11D 0x01 0x02 = 0x8E

/-- R88: INV, with DIV_ZERO for 0. -/
def Obligations.InvWritesInverse : Prop :=
  (∀ (a : Byte) (s : State), a ≠ 0 →
    exec (.inv a) s =
      .next { s with
        result := gfInv s.cfg.fieldPoly a
        inflight := none
        done := true
        errcode := .noError }) ∧
  (∀ s : State,
    exec (.inv 0) s = .next { s with inflight := none, done := true, err := true, errcode := .divZero }) ∧
  (∀ p ∈ legalPolys, gfInv p 1 = 1 ∧ (∀ a : Byte, a ≠ 0 → gfInv p (gfInv p a) = a) ∧
    (gfInv p 0x02).setWidth 9 = (p ^^^ 0x001) >>> 1) ∧
  (∀ a : Byte, decode (0x04#8 ++ a ++ 0x00#8 ++ 0x00#8) = .ok (.inv a)) ∧
  zeroFieldsChecked 0x04 0x0000FFFF ∧ gfInv 0x11D 0x02 = 0x8E

/-! ### The buffer command -/

/-- R89: MAC. Its checks in order, and what it does when none applies. -/
def Obligations.MacAccumulates : Prop :=
  (∀ (c : Byte) (s : State) (d r n : Nat), s.JustIssued → s.dst.toNat = d → s.src.toNat = r → s.len.toNat = n →
    ((s.cfg.memSize < d + n ∨ s.cfg.memSize < r + n) →
      exec (.mac c) s = .next { s with inflight := none, done := true, err := true, errcode := .range }) ∧
    (d + n ≤ s.cfg.memSize → r + n ≤ s.cfg.memSize → (0 < n ∧ d ≠ r ∧ d < r + n ∧ r < d + n) →
      exec (.mac c) s = .next { s with inflight := none, done := true, err := true, errcode := .overlap }) ∧
    (d + n ≤ s.cfg.memSize → r + n ≤ s.cfg.memSize → ¬ (0 < n ∧ d ≠ r ∧ d < r + n ∧ r < d + n) →
      ∃ t, exec (.mac c) s = .next t ∧
        t = { s with mem := t.mem, inflight := none, done := true, errcode := .noError } ∧
        (∀ i, i < n →
          t.mem.read (d + i) = s.mem.read (d + i) ^^^ gfMul s.cfg.fieldPoly c (s.mem.read (r + i))) ∧
        ∀ a, ¬ (d ≤ a ∧ a < d + n) → t.mem.read a = s.mem.read a)) ∧
  (∀ c : Byte, decode (0x08#8 ++ c ++ 0x00#8 ++ 0x00#8) = .ok (.mac c)) ∧ zeroFieldsChecked 0x08 0x0000FFFF ∧
  (0x01 : Byte) ^^^ gfMul 0x11D 0x02 0x03 = 0x07 ∧ (0x80 : Byte) ^^^ gfMul 0x11D 0x02 0x80 = 0x9D

/-- R90: MAC on one buffer multiplies every byte by `c ^ 0x01`. -/
def Obligations.AliasedMacScales : Prop :=
  ∀ (c : Byte) (s : State) (d n : Nat), s.JustIssued → s.dst.toNat = d → s.src.toNat = d → s.len.toNat = n → 0 < n →
    d + n ≤ s.cfg.memSize →
    ∃ t, exec (.mac c) s = .next t ∧
      (∀ i, i < n → t.mem.read (d + i) = gfMul s.cfg.fieldPoly (c ^^^ 0x01) (s.mem.read (d + i))) ∧
      (c = 0x01 → ∀ i, i < n → t.mem.read (d + i) = 0) ∧
      (c = 0x00 → ∀ i, i < n → t.mem.read (d + i) = s.mem.read (d + i)) ∧
      (∀ k, c = k ^^^ 0x01 → ∀ i, i < n → t.mem.read (d + i) = gfMul s.cfg.fieldPoly k (s.mem.read (d + i))) ∧
      ∀ a, ¬ (d ≤ a ∧ a < d + n) → t.mem.read a = s.mem.read a

/-! ### The solver commands -/

/-- R96: SCLR. -/
def Obligations.SclrClearsSolver : Prop :=
  (∀ s : State,
    exec .sclr s =
      .next { s with
        solver := { width := 0, rows := [], slen := 0, dep := false }
        inflight := none
        done := true
        errcode := .noError }) ∧
  decode 0x10000000 = .ok .sclr ∧ zeroFieldsChecked 0x10 0x00FFFFFF

/-- R97: SWID. Its checks, the zero-padding, and that growth keeps the rows independent. -/
def Obligations.SwidGrowsWidth : Prop :=
  (∀ (n : Nat) (s : State),
    (n < s.solver.width →
      exec (.swid n) s = .next { s with inflight := none, done := true, err := true, errcode := .widthShrink }) ∧
    (s.solver.width ≤ n → s.cfg.maxCols < n →
      exec (.swid n) s = .next { s with inflight := none, done := true, err := true, errcode := .widthOverflow }) ∧
    (s.solver.width ≤ n → n ≤ s.cfg.maxCols →
      exec (.swid n) s =
        .next { s with
          solver :=
            { s.solver with
              width := n
              rows := s.solver.rows.map fun r =>
                { coef := r.coef ++ List.replicate (n - s.solver.width) 0x00, payload := r.payload } }
          inflight := none
          done := true
          errcode := .noError }) ∧
    (s.solver.width ≤ s.cfg.maxCols → ¬ (n < s.solver.width ∧ s.cfg.maxCols < n)) ∧
    (s.solver.width < n → s.solver.rows.length ≤ s.solver.width → (s.solver.grow n).full = false) ∧
    (s.solver.width = n → s.solver.grow n = s.solver)) ∧
  (∀ (p : BitVec 9) (w n : Nat) (vs : List (List Byte)), w ≤ n → (∀ v ∈ vs, v.length = w) → Independent p w vs →
    Independent p n (vs.map fun v => v ++ List.replicate (n - w) 0x00)) ∧
  (∀ n, n < 2 ^ 16 → decode (0x11#8 ++ 0x00#8 ++ BitVec.ofNat 16 n) = .ok (.swid n)) ∧
  zeroFieldsChecked 0x11 0x00FF0000

/-- R98, by the model's own test of dependence: where SINS completes and with what. -/
def Obligations.SinsCompletes : Prop :=
  ∀ (s : State) (n : Nat), s.JustIssued → s.len.toNat = n → n ≤ s.cfg.maxSym →
    (0 < s.solver.rows.length → n = s.solver.slen) → s.coef.toNat + s.solver.width ≤ s.cfg.memSize →
    s.src.toNat + n ≤ s.cfg.memSize →
    (inSpan s.cfg.fieldPoly (s.solver.rows.map Row.coef) (s.mem.readMany s.coef.toNat s.solver.width) = true →
      exec .sins s =
        .next { s with
          solver := { s.solver with dep := true }
          inflight := none
          done := true
          errcode := .noError }) ∧
    (inSpan s.cfg.fieldPoly (s.solver.rows.map Row.coef) (s.mem.readMany s.coef.toNat s.solver.width) = false →
      exec .sins s =
        .next { s with
          solver :=
            { width := s.solver.width
              rows := s.solver.rows ++
                [{ coef := s.mem.readMany s.coef.toNat s.solver.width, payload := s.mem.readMany s.src.toNat n }]
              slen := n
              dep := false }
          inflight := none
          done := true
          errcode := .noError })

/-- R98: SINS by the mathematical span of R92: its checks in order, a dependent candidate discarded, any other appended. -/
def Obligations.SinsInsertsIndependentRows : Prop :=
  (∀ (s : State) (n : Nat), s.Inv → s.JustIssued → s.len.toNat = n →
    (s.cfg.maxSym < n →
      exec .sins s = .next { s with inflight := none, done := true, err := true, errcode := .lenOverflow }) ∧
    (n ≤ s.cfg.maxSym → 0 < s.solver.rows.length → n ≠ s.solver.slen →
      exec .sins s = .next { s with inflight := none, done := true, err := true, errcode := .lenMismatch }) ∧
    (n ≤ s.cfg.maxSym → (0 < s.solver.rows.length → n = s.solver.slen) →
      (s.cfg.memSize < s.coef.toNat + s.solver.width ∨ s.cfg.memSize < s.src.toNat + n) →
      exec .sins s = .next { s with inflight := none, done := true, err := true, errcode := .range }) ∧
    (n ≤ s.cfg.maxSym → (0 < s.solver.rows.length → n = s.solver.slen) →
      s.coef.toNat + s.solver.width ≤ s.cfg.memSize → s.src.toNat + n ≤ s.cfg.memSize →
      (InSpan s.cfg.fieldPoly s.solver.width (s.solver.rows.map Row.coef)
          (s.mem.readMany s.coef.toNat s.solver.width) →
        exec .sins s =
          .next { s with
            solver := { s.solver with dep := true }
            inflight := none
            done := true
            errcode := .noError }) ∧
      (¬ InSpan s.cfg.fieldPoly s.solver.width (s.solver.rows.map Row.coef)
          (s.mem.readMany s.coef.toNat s.solver.width) →
        exec .sins s =
          .next { s with
            solver :=
              { width := s.solver.width
                rows := s.solver.rows ++
                  [{ coef := s.mem.readMany s.coef.toNat s.solver.width, payload := s.mem.readMany s.src.toNat n }]
                slen := n
                dep := false }
            inflight := none
            done := true
            errcode := .noError }))) ∧
  (∀ (p : BitVec 9) (w : Nat) (vs : List (List Byte)), (∀ v ∈ vs, v.length = w) →
    InSpan p w vs (List.replicate w 0x00)) ∧
  decode 0x12000000 = .ok .sins ∧ zeroFieldsChecked 0x12 0x00FFFFFF

/-- R92, R100: the elimination test decides the span of R92 exactly. -/
def Obligations.InSpanTestIsExact : Prop :=
  ∀ p ∈ legalPolys, ∀ (w : Nat) (vs : List (List Byte)) (c : List Byte), (∀ v ∈ vs, v.length = w) → c.length = w →
    (inSpan p vs c = true ↔ InSpan p w vs c)

/-- R99, by the model's own solution: where SSOL completes, what it writes and where. -/
def Obligations.SsolCompletes : Prop :=
  ∀ (s : State) (d w n : Nat), s.JustIssued → s.dst.toNat = d → s.solver.width = w → s.solver.slen = n → 0 < w →
    s.solver.rows.length = w → d + w * n ≤ s.cfg.memSize →
    ∃ t, exec .ssol s = .next t ∧
      t = { s with
            mem := t.mem
            solver := { width := 0, rows := [], slen := 0, dep := false }
            inflight := none
            done := true
            errcode := .noError } ∧
      (∀ j b, j < w → b < n →
        t.mem.read (d + j * n + b) = ((solve s.cfg.fieldPoly w s.solver.rows).getD j []).getD b 0x00) ∧
      ∀ a, ¬ (d ≤ a ∧ a < d + w * n) → t.mem.read a = s.mem.read a

/-- R95: for a full system `solve` gives a solution and the only one; it does not depend on the order of the rows. -/
def Obligations.SolutionIsUnique : Prop :=
  ∀ p ∈ legalPolys, ∀ (w n : Nat) (rows : List Row), 0 < w → rows.length = w → (∀ r ∈ rows, r.coef.length = w) →
    (∀ r ∈ rows, r.payload.length = n) → Independent p w (rows.map Row.coef) →
    Solves p w n rows (solve p w rows) ∧ (∀ xs, Solves p w n rows xs → xs = solve p w rows) ∧
    ∀ rows' : List Row, rows.Perm rows' → solve p w rows' = solve p w rows

/-- R99: SSOL. Its checks in order; else the bytes it writes from DST on, unknown by unknown in window order, solve the
system, nothing else in memory changes, and the solver is clear. -/
def Obligations.SsolRecoversSymbols : Prop :=
  (∀ (s : State) (d w n : Nat), s.Inv → s.SolverInv → s.JustIssued → s.dst.toNat = d → s.solver.width = w →
    s.solver.slen = n →
    ((w = 0 ∨ s.solver.rows.length ≠ w) →
      exec .ssol s = .next { s with inflight := none, done := true, err := true, errcode := .notFull }) ∧
    (0 < w → s.solver.rows.length = w → s.cfg.memSize < d + w * n →
      exec .ssol s = .next { s with inflight := none, done := true, err := true, errcode := .range }) ∧
    (0 < w → s.solver.rows.length = w → d + w * n ≤ s.cfg.memSize →
      ∃ t, exec .ssol s = .next t ∧
        t = { s with
              mem := t.mem
              solver := { width := 0, rows := [], slen := 0, dep := false }
              inflight := none
              done := true
              errcode := .noError } ∧
        Solves s.cfg.fieldPoly w n s.solver.rows ((List.range w).map fun j => t.mem.readMany (d + j * n) n) ∧
        ∀ a, ¬ (d ≤ a ∧ a < d + w * n) → t.mem.read a = s.mem.read a)) ∧
  decode 0x13000000 = .ok .ssol ∧ zeroFieldsChecked 0x13 0x00FFFFFF

/-- R98, R93: with a full solver every candidate is dependent. -/
def Obligations.FullSolverRejectsCandidates : Prop :=
  ∀ s : State, s.Inv → s.SolverInv → s.JustIssued → s.solver.full = true → s.len.toNat = s.solver.slen →
    s.coef.toNat + s.solver.width ≤ s.cfg.memSize → s.src.toNat + s.len.toNat ≤ s.cfg.memSize →
    exec .sins s =
      .next { s with solver := { s.solver with dep := true }, inflight := none, done := true, errcode := .noError }

/-- R102: inserting a row a second time changes nothing of the solver but DEP. The second `exec` is applied where nothing is
in flight, so it issues the command there, with the operand registers of that state (log 3, DESIGN CHOICE). -/
def Obligations.DuplicateInsertIsDependent : Prop :=
  ∀ s t : State, s.Inv → s.JustIssued → exec .sins s = .next t → t.errcode = .noError →
    ∃ u, exec .sins t = .next u ∧ u.errcode = .noError ∧ u.solver = { t.solver with dep := true }

/-! ### Completions and frames -/

/-- R108: which error a command reports. -/
def Obligations.ErrorsReportedInOrder : Prop :=
  (∀ (s : State) (f : InFlight) (a b : Byte) (n : Nat),
    errorOf (.add a b) s f = none ∧ errorOf (.mul a b) s f = none ∧
    errorOf (.div a b) s f = (if b = 0 then some .divZero else none) ∧
    errorOf (.inv a) s f = (if a = 0 then some .divZero else none) ∧
    errorOf (.mac a) s f =
      (if s.cfg.memSize < f.dst.toNat + f.len.toNat then some .range
       else if s.cfg.memSize < f.src.toNat + f.len.toNat then some .range
       else if 0 < f.len.toNat ∧ f.dst.toNat ≠ f.src.toNat ∧ f.dst.toNat < f.src.toNat + f.len.toNat ∧
          f.src.toNat < f.dst.toNat + f.len.toNat then some .overlap
       else none) ∧
    errorOf .sclr s f = none ∧
    errorOf (.swid n) s f =
      (if n < s.solver.width then some .widthShrink
       else if s.cfg.maxCols < n then some .widthOverflow
       else none) ∧
    errorOf .sins s f =
      (if s.cfg.maxSym < f.len.toNat then some .lenOverflow
       else if 0 < s.solver.rows.length ∧ f.len.toNat ≠ s.solver.slen then some .lenMismatch
       else if s.cfg.memSize < f.coef.toNat + s.solver.width then some .range
       else if s.cfg.memSize < f.src.toNat + f.len.toNat then some .range
       else none) ∧
    errorOf .ssol s f =
      (if s.solver.width = 0 ∨ s.solver.rows.length ≠ s.solver.width then some .notFull
       else if s.cfg.memSize < f.dst.toNat + s.solver.width * s.solver.slen then some .range
       else none)) ∧
  (∀ (i : Instr) (s : State) (c : ErrCode), errorOf i s (s.flight i) = some c →
    ∃ t, exec i s = .next t ∧ t.errcode = c) ∧
  (∀ (s : State) (f : InFlight) (e : Illegal), s.inflight = some f → decode f.word = .error e →
    ∃ t, engineStep s = .next t ∧ t.errcode = .illegal) ∧
  ∀ (s : State) (f : InFlight) (v : Word), s.inflight = some f →
    ∀ r ∈ [Reg.cmd, .dst, .src, .coef, .len], (s.writeReg r v).errcode = s.errcode

/-- R106, R107: every command completes; with an error exactly four things change, without one ERR, OVR and CTRL stay. An
illegal word completes with its error too. -/
def Obligations.CompletionsArePrecise : Prop :=
  (∀ (s : State) (f : InFlight) (e : Illegal), s.inflight = some f → decode f.word = .error e →
    engineStep s = .next { s with inflight := none, done := true, err := true, errcode := .illegal } ∧
    engineRun s = .next { s with inflight := none, done := true, err := true, errcode := .illegal }) ∧
  ∀ (i : Instr) (s : State),
    (∀ c, errorOf i s (s.flight i) = some c →
      exec i s = .next { s with inflight := none, done := true, err := true, errcode := c }) ∧
    (errorOf i s (s.flight i) = none →
      ∃ t, exec i s = .next t ∧ t.inflight = none ∧ t.done = true ∧ t.errcode = .noError ∧ t.err = s.err ∧
        t.ovr = s.ovr ∧ t.doneIe = s.doneIe ∧ t.errIe = s.errIe)

/-- The frame of the commands that store nothing: ADD, MUL, DIV and INV change RESULT, SCLR, SWID and SINS the solver; beyond
that only what a completion changes. -/
def Obligations.RegisterCommandsFrame : Prop :=
  (∀ (a b : Byte) (i : Instr) (s t : State), i ∈ [.add a b, .mul a b, .div a b, .inv a] → exec i s = .next t →
    t = { s with result := t.result, inflight := none, done := true, err := t.err, errcode := t.errcode } ∧
    (t.err = true ↔ s.err = true ∨ t.errcode ≠ .noError) ∧ ∀ x, t.mem.read x = s.mem.read x) ∧
  ∀ (n : Nat) (i : Instr) (s t : State), i ∈ [.sclr, .swid n, .sins] → exec i s = .next t →
    t = { s with solver := t.solver, inflight := none, done := true, err := t.err, errcode := t.errcode } ∧
    (t.err = true ↔ s.err = true ∨ t.errcode ≠ .noError) ∧ ∀ x, t.mem.read x = s.mem.read x

/-- The frame of MAC and SSOL: memory outside the buffer they write, and every register, stay; SSOL also sets the solver. -/
def Obligations.StoringCommandsFrame : Prop :=
  (∀ (c : Byte) (s t : State), exec (.mac c) s = .next t →
    t = { s with mem := t.mem, inflight := none, done := true, err := t.err, errcode := t.errcode } ∧
    (t.err = true ↔ s.err = true ∨ t.errcode ≠ .noError) ∧
    ∀ x, inBuffer x (writtenBuffer (.mac c) s (s.flight (.mac c))) = false → t.mem.read x = s.mem.read x) ∧
  ∀ s t : State, exec .ssol s = .next t →
    t = { s with
          mem := t.mem
          solver := t.solver
          inflight := none
          done := true
          err := t.err
          errcode := t.errcode } ∧
    (t.err = true ↔ s.err = true ∨ t.errcode ≠ .noError) ∧
    ∀ x, inBuffer x (writtenBuffer .ssol s (s.flight .ssol)) = false → t.mem.read x = s.mem.read x

/-! ### The register block -/

/-- R29, R21, R44: a write to CMD while idle issues the word, with the operand registers latched; while busy it is dropped
with OVR; a read of CMD returns 0. -/
def Obligations.CmdWriteIssues : Prop :=
  (∀ (s : State) (rest : List Turn), s.rst = false → s.turns = .busRead (s.cfg.gfuBase + 0x1C) 4 :: rest →
    step s = .next { s with turns := rest, readData := 0x00000000 }) ∧
  ∀ (s : State) (w : Word) (rest : List Turn), s.rst = false →
    s.turns = .busWrite (s.cfg.gfuBase + 0x1C) 4 w :: rest →
    (s.inflight = none →
      step s =
        .next { s with
          turns := rest
          done := false
          inflight := some { word := w, dst := s.dst, src := s.src, coef := s.coef, len := s.len, made := 0,
                             fetched := [] } }) ∧
    ∀ f, s.inflight = some f → step s = .next { s with turns := rest, ovr := true }

/-- R31 to R34: DST, SRC, COEF and LEN accept every value while idle and read it back; no other register changes. -/
def Obligations.OperandRegistersReadBack : Prop :=
  ∀ (s : State) (r : Reg) (v : Word) (rest : List Turn), r ∈ [Reg.dst, .src, .coef, .len] → s.rst = false →
    s.inflight = none → s.turns = .busWrite (s.cfg.gfuBase + r.offset) 4 v :: rest →
    ∃ t, step s = .next t ∧ t.readReg r = v ∧ (∀ q, q ≠ r → t.readReg q = s.readReg q) ∧ t.mem = s.mem ∧
      t.solver = s.solver ∧ t.inflight = none

/-- R109: a write to CMD, DST, SRC, COEF or LEN while BUSY is dropped and sets OVR, and the command in flight completes as
if it had not happened. -/
def Obligations.DroppedWritesSetOvr : Prop :=
  (∀ (s : State) (f : InFlight) (r : Reg) (v : Word) (rest : List Turn),
    r ∈ [Reg.cmd, .dst, .src, .coef, .len] → s.rst = false → s.inflight = some f →
    s.turns = .busWrite (s.cfg.gfuBase + r.offset) 4 v :: rest →
    step s = .next { s with turns := rest, ovr := true }) ∧
  ∀ (i : Instr) (s t : State), exec i s = .next t →
    exec i { s with ovr := true } = .next { t with ovr := true }

/-- R42: a register read has no side effect and returns the current value, and a write to a read-only register or STATUS bit
is ignored. -/
def Obligations.ReadOnlyRegisters : Prop :=
  (∀ (s : State) (r : Reg) (rest : List Turn), s.rst = false →
    s.turns = .busRead (s.cfg.gfuBase + r.offset) 4 :: rest →
    step s = .next { s with turns := rest, readData := s.readReg r }) ∧
  (∀ (s : State) (r : Reg) (v : Word) (rest : List Turn), s.rst = false →
    r ∈ [Reg.id, .poly, .maxcols, .maxsym, .errcode, .result, .width, .rank, .slen] →
    s.turns = .busWrite (s.cfg.gfuBase + r.offset) 4 v :: rest → step s = .next { s with turns := rest }) ∧
  ∀ (s : State) (v : Word), v &&& 0x0000000E = 0#32 → s.writeReg .status v = s

/-- R41: the reserved offsets read 0 and ignore writes in every state, and the reserved bits of the registers read 0. -/
def Obligations.ReservedBitsAndOffsets : Prop :=
  (∀ (s : State) (off : Nat) (v : Word), 0x40 ≤ off → off ≤ 0xFC → off % 4 = 0 →
    s.readOffset off = 0x00000000 ∧ s.writeOffset off v = s) ∧
  (∀ (s : State) (k : Nat),
    (9 ≤ k → (s.readReg .poly).getLsbD k = false) ∧ (16 ≤ k → (s.readReg .maxcols).getLsbD k = false) ∧
    (2 ≤ k → (s.readReg .ctrl).getLsbD k = false) ∧ (6 ≤ k → (s.readReg .status).getLsbD k = false) ∧
    (4 ≤ k → (s.readReg .errcode).getLsbD k = false) ∧ (8 ≤ k → (s.readReg .result).getLsbD k = false) ∧
    (16 ≤ k → (s.readReg .width).getLsbD k = false) ∧ (16 ≤ k → (s.readReg .rank).getLsbD k = false)) ∧
  ∀ (s : State) (v : Word),
    s.writeReg .ctrl v = s.writeReg .ctrl (v &&& 0x00000003) ∧
    s.writeReg .status v = s.writeReg .status (v &&& 0x0000000E) ∧
    ∀ r ∈ [Reg.poly, .maxcols, .errcode, .result, .width, .rank], s.writeReg r v = s

/-- R51, R122: an access to the block that is not 32 bits wide at a multiple of 4, or that comes while `rst` is asserted, is
refused by name; every other access reads or writes. -/
def Obligations.RefusedRegisterAccesses : Prop :=
  ∀ (s : State) (off bytes : Nat) (v : Word) (rest : List Turn), off < 256 →
    (s.turns = .busRead (s.cfg.gfuBase + off) bytes :: rest →
      (s.rst = true → step s = .refused .accessDuringReset) ∧
      (s.rst = false → (bytes ≠ 4 ∨ off % 4 ≠ 0) → step s = .refused .accessShape) ∧
      (s.rst = false → bytes = 4 → off % 4 = 0 →
        step s = .next { s with turns := rest, readData := s.readOffset off })) ∧
    (s.turns = .busWrite (s.cfg.gfuBase + off) bytes v :: rest →
      (s.rst = true → step s = .refused .accessDuringReset) ∧
      (s.rst = false → (bytes ≠ 4 ∨ off % 4 ≠ 0) → step s = .refused .accessShape) ∧
      (s.rst = false → bytes = 4 → off % 4 = 0 →
        step s = .next { s.writeOffset off v with turns := rest }))

/-- R16 to R19: the configuration registers read the parameters, ignore writes, and never change. -/
def Obligations.ConfigurationRegisters : Prop :=
  (∀ s : State, s.cfg.Legal →
    s.readReg .id = 0x47465531 ∧ (s.readReg .poly).toNat = s.cfg.fieldPoly.toNat ∧
    (s.readReg .poly).getLsbD 8 = true ∧ (s.readReg .maxcols).toNat = s.cfg.maxCols ∧
    (s.readReg .maxsym).toNat = s.cfg.maxSym) ∧
  (∀ (s : State) (v : Word), ∀ r ∈ [Reg.id, .poly, .maxcols, .maxsym], s.writeReg r v = s) ∧
  ∀ s t : State, step s = .next t → t.cfg = s.cfg ∧ ∀ r ∈ [Reg.id, .poly, .maxcols, .maxsym], t.readReg r = s.readReg r

/-- R20: CTRL keeps bits 1:0, takes effect also while BUSY, and bears on no command's result. -/
def Obligations.CtrlOnlyEnablesIrq : Prop :=
  (∀ (s : State) (v : Word) (rest : List Turn), s.rst = false →
    s.turns = .busWrite (s.cfg.gfuBase + 0x10) 4 v :: rest →
    ∃ t, step s = .next t ∧ t = { s with turns := rest, doneIe := v.getLsbD 0, errIe := v.getLsbD 1 } ∧
      t.readReg .ctrl = v &&& 0x00000003) ∧
  (∀ s : State, s.irq = true ↔
    ((s.readReg .ctrl).getLsbD 0 = true ∧ s.done = true) ∨
    ((s.readReg .ctrl).getLsbD 1 = true ∧ (s.err = true ∨ s.ovr = true))) ∧
  (∀ c : Config, (State.powerUp c).readReg .ctrl = 0x00000000) ∧
  ∀ (i : Instr) (s t : State) (v : Word), exec i s = .next t →
    exec i (s.writeReg .ctrl v) = .next (t.writeReg .ctrl v)

/-- R27: one write to STATUS clears DONE, ERR and OVR where it has a 1, and changes nothing else; bits 31:6 read 0; a read
has no side effect. -/
def Obligations.StatusWriteOneToClear : Prop :=
  (∀ (s : State) (rest : List Turn), s.rst = false → s.turns = .busRead (s.cfg.gfuBase + 0x14) 4 :: rest →
    step s = .next { s with turns := rest, readData := s.readReg .status }) ∧
  ∀ (s : State) (v : Word),
    (∀ k, ((s.writeReg .status v).readReg .status).getLsbD k =
      (if k = 1 ∨ k = 2 ∨ k = 3 then (s.readReg .status).getLsbD k && !v.getLsbD k
       else (s.readReg .status).getLsbD k)) ∧
    (∀ k, 6 ≤ k → (s.readReg .status).getLsbD k = false) ∧
    ∃ x y z, s.writeReg .status v = { s with done := x, err := y, ovr := z }

/-- R111: `irq` in terms of what CTRL and STATUS read, with the meaning of the STATUS bits (R21 to R26). -/
def Obligations.IrqLevel : Prop :=
  ∀ s : State,
    (s.irq = true ↔
      ((s.readReg .ctrl).getLsbD 0 = true ∧ (s.readReg .status).getLsbD 1 = true) ∨
      ((s.readReg .ctrl).getLsbD 1 = true ∧
        ((s.readReg .status).getLsbD 2 = true ∨ (s.readReg .status).getLsbD 3 = true))) ∧
    (s.readReg .status).getLsbD 0 = s.inflight.isSome ∧ (s.readReg .status).getLsbD 1 = s.done ∧
    (s.readReg .status).getLsbD 2 = s.err ∧ (s.readReg .status).getLsbD 3 = s.ovr ∧
    (s.readReg .status).getLsbD 4 = s.solver.dep ∧
    ((s.readReg .status).getLsbD 5 = true ↔ 0 < s.solver.width ∧ s.solver.rows.length = s.solver.width)

/-- R35 to R37: WIDTH, RANK and SLEN read the solver's numbers, SLEN 0 while no row is held. -/
def Obligations.SolverViewRegisters : Prop :=
  (∀ c : Config, ∀ r ∈ [Reg.width, .rank, .slen], (State.powerUp c).readReg r = 0x00000000) ∧
  ∀ s : State, s.Inv → s.solver.rows.length ≤ s.solver.width →
    (s.readReg .width).toNat = s.solver.width ∧ s.solver.width ≤ s.cfg.maxCols ∧ s.cfg.maxCols ≤ 65535 ∧
    (s.readReg .rank).toNat = s.solver.rows.length ∧
    (0 < s.solver.rows.length → (s.readReg .slen).toNat = s.solver.slen) ∧
    (s.solver.rows.length = 0 → s.readReg .slen = 0x00000000) ∧
    ∀ r ∈ [Reg.width, .rank, .slen], ∀ v, s.writeReg r v = s

/-! ### Whole-machine rules -/

/-- R127: RESULT, ERRCODE, WIDTH, RANK, SLEN, STATUS.DEP and STATUS.FULL change only in the step in which the command in
flight completes, or in which `rst` is driven. -/
def Obligations.ResultsChangeOnlyAtCompletion : Prop :=
  ∀ s t : State, step s = .next t → (∀ level rest, s.turns ≠ .rst level :: rest) →
    ¬ (s.inflight.isSome = true ∧ t.inflight = none) →
    (∀ r ∈ [Reg.result, .errcode, .width, .rank, .slen], t.readReg r = s.readReg r) ∧
    (t.readReg .status).getLsbD 4 = (s.readReg .status).getLsbD 4 ∧
    (t.readReg .status).getLsbD 5 = (s.readReg .status).getLsbD 5

/-- R23: ERR is set by a completion in error and by nothing else, and falls by a host write of 1 to its bit and by reset and
by nothing else. -/
def Obligations.ErrIsSticky : Prop :=
  (∀ c : Config, (State.powerUp c).err = false) ∧ (∀ s : State, (s.readReg .status).getLsbD 2 = s.err) ∧
  (∀ (s : State) (v : Word) (rest : List Turn), s.rst = false →
    s.turns = .busWrite (s.cfg.gfuBase + 0x14) 4 v :: rest →
    ∃ t, step s = .next t ∧ t.err = (s.err && !v.getLsbD 2)) ∧
  ∀ s t : State, step s = .next t →
    (s.err = true → t.err = false →
      (∃ level rest, s.turns = .rst level :: rest) ∨
      ∃ v rest, s.turns = .busWrite (s.cfg.gfuBase + 0x14) 4 v :: rest ∧ v.getLsbD 2 = true) ∧
    (s.err = false → t.err = true →
      s.inflight.isSome = true ∧ t.inflight = none ∧ t.done = true ∧ t.errcode ≠ .noError) ∧
    (s.inflight.isSome = true → t.inflight = none → t.errcode ≠ .noError → t.err = true)

/-- R102: in any step RANK stays, rises by one, or falls to 0 with W; W stays or rises, or falls to 0. RANK rises only by
SINS. -/
def Obligations.RankAndWidthMonotone : Prop :=
  ∀ s t : State, step s = .next t →
    (t.solver.rows.length = s.solver.rows.length ∨
      (t.solver.rows.length = s.solver.rows.length + 1 ∧
        ∃ f, s.inflight = some f ∧ decode f.word = .ok .sins) ∨
      (t.solver.rows.length = 0 ∧ t.solver.width = 0)) ∧
    (s.solver.width ≤ t.solver.width ∨ (t.solver.width = 0 ∧ t.solver.rows = []))

/-- R119: driving `rst` high, and low again, gives every register its reset value, clears the solver and leaves nothing in
flight; they stay so while it is high; so it is right after power-up, for every configuration. -/
def Obligations.ResetEstablishesResetValues : Prop :=
  (∀ (s : State) (rest : List Turn),
    (s.turns = .rst true :: rest →
      ∃ t, step s = .next t ∧ t.rst = true ∧ t.cfg = s.cfg ∧ t.turns = rest ∧ t.AtReset) ∧
    (s.turns = .rst false :: rest → s.rst = true →
      ∃ t, step s = .next t ∧ t.rst = false ∧ t.cfg = s.cfg ∧ t.turns = rest ∧ t.AtReset)) ∧
  (∀ s t : State, s.rst = true → s.AtReset → step s = .next t → t.AtReset) ∧
  (∀ c : Config, (State.powerUp c).AtReset ∧ (State.powerUp c).cfg = c) ∧ State.reset.AtReset

/-- R120, R121: reset changes no byte of memory but those the abandoned command writes; every register and the solver take
their reset values. The model's choice are the clauses that each abandoned byte is `Config.abandonedByte` at the counter
`draws` and that `draws` counts them (log 6, DESIGN CHOICE), and that a byte at power-up is `Config.launchByte` (log 5,
DESIGN CHOICE). -/
def Obligations.ResetKeepsMemory : Prop :=
  (∀ (c : Config) (a : Nat), (State.powerUp c).mem.read a = Config.launchByte a) ∧
  ∀ (s : State) (rest : List Turn),
    (s.turns = .rst true :: rest →
      ∃ t, step s = .next t ∧
        (∀ a, inBuffer a s.writtenFootprint = false → t.mem.read a = s.mem.read a) ∧
        (∀ j, j < s.writtenFootprint.2 →
          t.mem.read (s.writtenFootprint.1 + j) = Config.abandonedByte (s.draws + j)) ∧
        t.draws = s.draws + s.writtenFootprint.2 ∧ t.AtReset ∧ (s.inflight = none → t.mem = s.mem)) ∧
    (s.turns = .rst false :: rest → ∃ t, step s = .next t ∧ t.mem = s.mem)

/-- R58: the footprint of each command. -/
def Obligations.FootprintOfCommands : Prop :=
  (∀ (i : Instr) (s : State) (f : InFlight) (e : ErrCode), errorOf i s f = some e →
    readBuffers i s f = [] ∧ writtenBuffer i s f = (0, 0)) ∧
  (∀ (i : Instr) (s : State) (f : InFlight), errorOf i s f = none →
    (∀ a b n, i ∈ [.add a b, .mul a b, .div a b, .inv a, .sclr, .swid n] →
      readBuffers i s f = [] ∧ writtenBuffer i s f = (0, 0)) ∧
    (∀ c, i = .mac c →
      readBuffers i s f = [(f.src.toNat, f.len.toNat), (f.dst.toNat, f.len.toNat)] ∧
      writtenBuffer i s f = (f.dst.toNat, f.len.toNat)) ∧
    (i = .sins →
      readBuffers i s f = [(f.coef.toNat, s.solver.width), (f.src.toNat, f.len.toNat)] ∧
      writtenBuffer i s f = (0, 0)) ∧
    (i = .ssol →
      readBuffers i s f = [] ∧ writtenBuffer i s f = (f.dst.toNat, s.solver.width * s.solver.slen)))

/-- R60: while a command is in flight, a host write to its footprint and a host read of what it writes are faults; every
other host access to an existing byte reads or writes that byte. That a host read of a byte the command only reads takes
effect is read from R60 and R126 by inference (log 8, DEDUCED). -/
def Obligations.HostRaceFaults : Prop :=
  (∀ (s : State) (f : InFlight) (i : Instr) (a : Nat) (rest : List Turn), s.inflight = some f →
    decode f.word = .ok i → a < s.cfg.memSize →
    (∀ v, s.turns = .memWrite a v :: rest →
      ((inBuffer a (writtenBuffer i s f) = true ∨ ∃ b ∈ readBuffers i s f, inBuffer a b = true) →
        step s = .fault (.hostRace a)) ∧
      (inBuffer a (writtenBuffer i s f) = false → (∀ b ∈ readBuffers i s f, inBuffer a b = false) →
        step s = .next { s with turns := rest, mem := s.mem.write a v })) ∧
    (s.turns = .memRead a :: rest →
      (inBuffer a (writtenBuffer i s f) = true → step s = .fault (.hostRace a)) ∧
      (inBuffer a (writtenBuffer i s f) = false →
        step s = .next { s with turns := rest, readData := (s.mem.read a).setWidth 32 }))) ∧
  ∀ (s : State) (a : Nat) (rest : List Turn),
    (s.inflight = none ∨ ∃ f e, s.inflight = some f ∧ decode f.word = .error e) → a < s.cfg.memSize →
    (∀ v, s.turns = .memWrite a v :: rest → step s = .next { s with turns := rest, mem := s.mem.write a v }) ∧
    (s.turns = .memRead a :: rest →
      step s = .next { s with turns := rest, readData := (s.mem.read a).setWidth 32 })

/-- R56, R60: a host access to memory that does not race commutes with the rest of the command in flight: host first and
then the command, or the command first and then the host, give the same state. Which accesses race is log 8 (DEDUCED), and
`exec` is the rest of the command taken together (log 2, DESIGN CHOICE). -/
def Obligations.HostAccessesCommute : Prop :=
  ∀ (s s' : State) (f : InFlight) (i : Instr) (a : Nat) (v : Byte), s.Inv → s.inflight = some f →
    decode f.word = .ok i →
    (hostWrite a v s = .next s' →
      ∃ t t', exec i s = .next t ∧ exec i s' = .next t' ∧ hostWrite a v t = .next t') ∧
    (hostRead a s = .next s' →
      ∃ t t', exec i s = .next t ∧ exec i s' = .next t' ∧ hostRead a t = .next t')

/-- R75: what the pseudo-instructions do, from an idle unit (BCOPY for disjoint buffers, log 18). -/
def Obligations.PseudoInstructionEffects : Prop :=
  (∀ (s : State) (a b : Byte), s.inflight = none → s.rst = false → s.turns = (Pseudo.sub a b).turns s →
    ∃ t, Host.Core.run Sys2Proof.core s.turns.length s = .next t ∧ t.result = gfSub a b ∧ t.mem = s.mem) ∧
  ∀ (s : State) (d r n : Nat), s.inflight = none → s.rst = false → s.dst.toNat = d → s.src.toNat = r →
    s.len.toNat = n → d + n ≤ s.cfg.memSize → r + n ≤ s.cfg.memSize →
    (s.turns = Pseudo.bzero.turns s →
      ∃ t, Host.Core.run Sys2Proof.core s.turns.length s = .next t ∧ (∀ i, i < n → t.mem.read (d + i) = 0) ∧
        ∀ a, ¬ (d ≤ a ∧ a < d + n) → t.mem.read a = s.mem.read a) ∧
    (∀ k, s.turns = (Pseudo.bscale k).turns s →
      ∃ t, Host.Core.run Sys2Proof.core s.turns.length s = .next t ∧
        (∀ i, i < n → t.mem.read (d + i) = gfMul s.cfg.fieldPoly k (s.mem.read (d + i))) ∧
        ∀ a, ¬ (d ≤ a ∧ a < d + n) → t.mem.read a = s.mem.read a) ∧
    (∀ k, k ≠ 0 → s.turns = (Pseudo.bdiv k).turns s →
      ∃ t, Host.Core.run Sys2Proof.core s.turns.length s = .next t ∧
        (∀ i, i < n → t.mem.read (d + i) = gfDiv s.cfg.fieldPoly (s.mem.read (d + i)) k) ∧
        ∀ a, ¬ (d ≤ a ∧ a < d + n) → t.mem.read a = s.mem.read a) ∧
    ((d + n ≤ r ∨ r + n ≤ d) → s.turns = Pseudo.bcopy.turns s →
      ∃ t, Host.Core.run Sys2Proof.core s.turns.length s = .next t ∧ t.src = s.src ∧
        (∀ i, i < n → t.mem.read (d + i) = s.mem.read (r + i)) ∧
        ∀ a, ¬ (d ≤ a ∧ a < d + n) → t.mem.read a = s.mem.read a) ∧
    (∀ c, (d = r ∨ d + n ≤ r ∨ r + n ≤ d) → s.turns = (Pseudo.bsubw c).turns s →
      ∃ t, Host.Core.run Sys2Proof.core s.turns.length s = .next t ∧
        (∀ i, i < n →
          t.mem.read (d + i) = gfSub (s.mem.read (d + i)) (gfMul s.cfg.fieldPoly c (s.mem.read (r + i)))) ∧
        ∀ a, ¬ (d ≤ a ∧ a < d + n) → t.mem.read a = s.mem.read a)

/-! ### Invariants -/

/-- The shape invariant holds right after power-up, for every legal configuration. -/
def Obligations.ResetSatisfiesInv : Prop :=
  (∀ c : Config, c.Legal → (State.powerUp c).Inv) ∧ State.reset.Inv

/-- Every step keeps the shape invariant, from every state that has it. -/
def Obligations.StepKeepsInv : Prop :=
  ∀ s t : State, s.Inv → step s = .next t → t.Inv

/-- R40: reset establishes the solver invariants I1 to I4 and every step keeps them. -/
def Obligations.StepKeepsSolverInv : Prop :=
  (∀ c : Config, c.Legal → (State.powerUp c).SolverInv) ∧
  ∀ s t : State, s.Inv → s.SolverInv → step s = .next t → t.SolverInv
end

