-- ==== Sys2Proof/Laws/Memory.lean ====
section
/-! SUPPORT. Laws of buffer memory: read after write, and that every operation keeps the canonical form. -/

namespace Sys2Proof.Machine

@[simp] theorem Memory.read_write_same (m : Memory) (a : Nat) (v : Byte) : (m.write a v).read a = v := by
  induction m with
  | nil => simp [Memory.write, Memory.read]
  | cons c m ih =>
    obtain ⟨k, w⟩ := c
    simp only [Memory.write]
    split
    · simp [Memory.read]
    · split
      · simp [Memory.read]
      · simp [Memory.read, *]

theorem Memory.read_write_ne (m : Memory) (a b : Nat) (v : Byte) (h : b ≠ a) : (m.write a v).read b = m.read b := by
  induction m with
  | nil => simp [Memory.write, Memory.read, h]
  | cons c m ih =>
    obtain ⟨k, w⟩ := c
    simp only [Memory.write]
    split
    · simp [Memory.read, h]
    · split
      · simp_all [Memory.read]
      · simp [Memory.read, ih]

/-- A read after a write (R53: "returns the last value written"). -/
theorem Memory.read_write (m : Memory) (a b : Nat) (v : Byte) :
    (m.write a v).read b = if b = a then v else m.read b := by
  split
  · next h => subst h; simp
  · next h => exact m.read_write_ne a b v h

/-- Which addresses a write lists. -/
theorem Memory.mem_write (m : Memory) (a : Nat) (v : Byte) (c : Host.Cell) (h : c ∈ m.write a v) :
    c = (a, v) ∨ c ∈ m := by
  induction m with
  | nil => simpa [Memory.write] using h
  | cons d m ih =>
    obtain ⟨k, w⟩ := d
    simp only [Memory.write] at h
    split at h
    · simpa using h
    · split at h
      · rcases List.mem_cons.1 h with h | h
        · exact .inl h
        · exact .inr (List.mem_cons_of_mem _ h)
      · rcases List.mem_cons.1 h with h | h
        · exact .inr (h ▸ List.mem_cons_self)
        · exact (ih h).imp id (List.mem_cons_of_mem _)

/-- A write keeps the canonical form. -/
theorem Memory.wf_write (m : Memory) (a : Nat) (v : Byte) (h : m.wf) : (m.write a v).wf := by
  induction m with
  | nil => simp [Memory.wf, Memory.write]
  | cons d m ih =>
    obtain ⟨k, w⟩ := d
    simp only [Memory.wf, List.map_cons, List.pairwise_cons] at h
    obtain ⟨hk, hm⟩ := h
    simp only [Memory.write]
    split
    · next hlt =>
      simp only [Memory.wf, List.map_cons, List.pairwise_cons]
      exact ⟨fun x hx => by
        rcases List.mem_cons.1 hx with rfl | hx
        · exact hlt
        · exact hlt.trans (hk x hx), hk, hm⟩
    · split
      · next heq =>
        subst heq
        exact List.pairwise_cons.2 ⟨hk, hm⟩
      · next hge hne =>
        refine List.pairwise_cons.2 ⟨fun x hx => ?_, ih hm⟩
        obtain ⟨c, hc, rfl⟩ := List.mem_map.1 hx
        rcases Memory.mem_write m a v c hc with rfl | hc
        · show k < a
          omega
        · exact hk _ (List.mem_map_of_mem hc)

theorem Memory.wf_scramble (m : Memory) (a d n : Nat) (h : m.wf) : (m.scramble a d n).wf := by
  induction n with
  | zero => exact h
  | succ n ih => exact Memory.wf_write _ _ _ ih

/-- R121: the scrambled bytes hold the draws from `d` on, and no other byte changes. -/
theorem Memory.read_scramble (m : Memory) (a d n b : Nat) :
    (m.scramble a d n).read b =
      if a ≤ b ∧ b < a + n then Config.abandonedByte (d + (b - a)) else m.read b := by
  induction n with
  | zero => rw [if_neg (by omega)]; rfl
  | succ n ih =>
    rw [Memory.scramble, Memory.read_write, ih]
    split
    · next h => subst h; rw [if_pos (by omega), Nat.add_sub_cancel_left]
    · next h =>
      by_cases hb : a ≤ b ∧ b < a + n
      · rw [if_pos hb, if_pos (by omega)]
      · rw [if_neg hb, if_neg (by omega)]

theorem Memory.mem_scramble (m : Memory) (a d n : Nat) (c : Host.Cell) (h : c ∈ m.scramble a d n) :
    (a ≤ c.1 ∧ c.1 < a + n) ∨ c ∈ m := by
  induction n with
  | zero => exact .inr h
  | succ n ih =>
    rcases Memory.mem_write _ _ _ _ h with rfl | h
    · exact .inl ⟨Nat.le_add_right _ _, by simp⟩
    · rcases ih h with h | h
      · exact .inl ⟨h.1, by omega⟩
      · exact .inr h

/-- Two memories in canonical form that list the same cells are equal data. -/
theorem Memory.eq_of_same_cells (m n : Memory) (hm : m.wf) (hn : n.wf) (h : ∀ c, c ∈ m ↔ c ∈ n) : m = n := by
  have hm' : m.Pairwise (fun x y => x.1 < y.1) := List.pairwise_map.1 hm
  have hn' : n.Pairwise (fun x y => x.1 < y.1) := List.pairwise_map.1 hn
  have nodup : ∀ l : Memory, l.Pairwise (fun x y => x.1 < y.1) → l.Nodup := fun l hl =>
    hl.imp fun hxy e => by subst e; exact lt_irrefl _ hxy
  exact ((List.perm_ext_iff_of_nodup (nodup m hm') (nodup n hn')).2 h).eq_of_pairwise
    (fun a b _ _ hab hba => absurd hab (not_lt.2 hba.le)) hm' hn'

@[simp] theorem Memory.length_readMany (m : Memory) (a n : Nat) : (m.readMany a n).length = n := by
  simp [Memory.readMany]

theorem Memory.getD_readMany (m : Memory) (a n i : Nat) (d : Byte) (h : i < n) :
    (m.readMany a n).getD i d = m.read (a + i) := by
  simp [Memory.readMany, List.getD, h]

end Sys2Proof.Machine
end

