-- ==== Sys2Proof/Laws/State.lean ====
section
/-! SUPPORT. One lemma per field of State for each update, so that no proof unfolds a record update. -/

namespace Sys2Proof.Machine

section SetMem
variable (s : State) (m : Memory)

@[simp] theorem State.setMem_cfg : (s.setMem m).cfg = s.cfg := rfl
@[simp] theorem State.setMem_rst : (s.setMem m).rst = s.rst := rfl
@[simp] theorem State.setMem_doneIe : (s.setMem m).doneIe = s.doneIe := rfl
@[simp] theorem State.setMem_errIe : (s.setMem m).errIe = s.errIe := rfl
@[simp] theorem State.setMem_done : (s.setMem m).done = s.done := rfl
@[simp] theorem State.setMem_err : (s.setMem m).err = s.err := rfl
@[simp] theorem State.setMem_ovr : (s.setMem m).ovr = s.ovr := rfl
@[simp] theorem State.setMem_errcode : (s.setMem m).errcode = s.errcode := rfl
@[simp] theorem State.setMem_result : (s.setMem m).result = s.result := rfl
@[simp] theorem State.setMem_dst : (s.setMem m).dst = s.dst := rfl
@[simp] theorem State.setMem_src : (s.setMem m).src = s.src := rfl
@[simp] theorem State.setMem_coef : (s.setMem m).coef = s.coef := rfl
@[simp] theorem State.setMem_len : (s.setMem m).len = s.len := rfl
@[simp] theorem State.setMem_solver : (s.setMem m).solver = s.solver := rfl
@[simp] theorem State.setMem_inflight : (s.setMem m).inflight = s.inflight := rfl
@[simp] theorem State.setMem_mem : (s.setMem m).mem = m := rfl
@[simp] theorem State.setMem_turns : (s.setMem m).turns = s.turns := rfl
@[simp] theorem State.setMem_readData : (s.setMem m).readData = s.readData := rfl
@[simp] theorem State.setMem_draws : (s.setMem m).draws = s.draws := rfl

end SetMem

section SetResult
variable (s : State) (v : Byte)

@[simp] theorem State.setResult_cfg : (s.setResult v).cfg = s.cfg := rfl
@[simp] theorem State.setResult_rst : (s.setResult v).rst = s.rst := rfl
@[simp] theorem State.setResult_doneIe : (s.setResult v).doneIe = s.doneIe := rfl
@[simp] theorem State.setResult_errIe : (s.setResult v).errIe = s.errIe := rfl
@[simp] theorem State.setResult_done : (s.setResult v).done = s.done := rfl
@[simp] theorem State.setResult_err : (s.setResult v).err = s.err := rfl
@[simp] theorem State.setResult_ovr : (s.setResult v).ovr = s.ovr := rfl
@[simp] theorem State.setResult_errcode : (s.setResult v).errcode = s.errcode := rfl
@[simp] theorem State.setResult_result : (s.setResult v).result = v := rfl
@[simp] theorem State.setResult_dst : (s.setResult v).dst = s.dst := rfl
@[simp] theorem State.setResult_src : (s.setResult v).src = s.src := rfl
@[simp] theorem State.setResult_coef : (s.setResult v).coef = s.coef := rfl
@[simp] theorem State.setResult_len : (s.setResult v).len = s.len := rfl
@[simp] theorem State.setResult_solver : (s.setResult v).solver = s.solver := rfl
@[simp] theorem State.setResult_inflight : (s.setResult v).inflight = s.inflight := rfl
@[simp] theorem State.setResult_mem : (s.setResult v).mem = s.mem := rfl
@[simp] theorem State.setResult_turns : (s.setResult v).turns = s.turns := rfl
@[simp] theorem State.setResult_readData : (s.setResult v).readData = s.readData := rfl
@[simp] theorem State.setResult_draws : (s.setResult v).draws = s.draws := rfl

end SetResult

section SetSolver
variable (s : State) (sv : Solver)

@[simp] theorem State.setSolver_cfg : (s.setSolver sv).cfg = s.cfg := rfl
@[simp] theorem State.setSolver_rst : (s.setSolver sv).rst = s.rst := rfl
@[simp] theorem State.setSolver_doneIe : (s.setSolver sv).doneIe = s.doneIe := rfl
@[simp] theorem State.setSolver_errIe : (s.setSolver sv).errIe = s.errIe := rfl
@[simp] theorem State.setSolver_done : (s.setSolver sv).done = s.done := rfl
@[simp] theorem State.setSolver_err : (s.setSolver sv).err = s.err := rfl
@[simp] theorem State.setSolver_ovr : (s.setSolver sv).ovr = s.ovr := rfl
@[simp] theorem State.setSolver_errcode : (s.setSolver sv).errcode = s.errcode := rfl
@[simp] theorem State.setSolver_result : (s.setSolver sv).result = s.result := rfl
@[simp] theorem State.setSolver_dst : (s.setSolver sv).dst = s.dst := rfl
@[simp] theorem State.setSolver_src : (s.setSolver sv).src = s.src := rfl
@[simp] theorem State.setSolver_coef : (s.setSolver sv).coef = s.coef := rfl
@[simp] theorem State.setSolver_len : (s.setSolver sv).len = s.len := rfl
@[simp] theorem State.setSolver_solver : (s.setSolver sv).solver = sv := rfl
@[simp] theorem State.setSolver_inflight : (s.setSolver sv).inflight = s.inflight := rfl
@[simp] theorem State.setSolver_mem : (s.setSolver sv).mem = s.mem := rfl
@[simp] theorem State.setSolver_turns : (s.setSolver sv).turns = s.turns := rfl
@[simp] theorem State.setSolver_readData : (s.setSolver sv).readData = s.readData := rfl
@[simp] theorem State.setSolver_draws : (s.setSolver sv).draws = s.draws := rfl

end SetSolver

section SetInflight
variable (s : State) (f : InFlight)

@[simp] theorem State.setInflight_cfg : (s.setInflight f).cfg = s.cfg := rfl
@[simp] theorem State.setInflight_rst : (s.setInflight f).rst = s.rst := rfl
@[simp] theorem State.setInflight_doneIe : (s.setInflight f).doneIe = s.doneIe := rfl
@[simp] theorem State.setInflight_errIe : (s.setInflight f).errIe = s.errIe := rfl
@[simp] theorem State.setInflight_done : (s.setInflight f).done = s.done := rfl
@[simp] theorem State.setInflight_err : (s.setInflight f).err = s.err := rfl
@[simp] theorem State.setInflight_ovr : (s.setInflight f).ovr = s.ovr := rfl
@[simp] theorem State.setInflight_errcode : (s.setInflight f).errcode = s.errcode := rfl
@[simp] theorem State.setInflight_result : (s.setInflight f).result = s.result := rfl
@[simp] theorem State.setInflight_dst : (s.setInflight f).dst = s.dst := rfl
@[simp] theorem State.setInflight_src : (s.setInflight f).src = s.src := rfl
@[simp] theorem State.setInflight_coef : (s.setInflight f).coef = s.coef := rfl
@[simp] theorem State.setInflight_len : (s.setInflight f).len = s.len := rfl
@[simp] theorem State.setInflight_solver : (s.setInflight f).solver = s.solver := rfl
@[simp] theorem State.setInflight_inflight : (s.setInflight f).inflight = some f := rfl
@[simp] theorem State.setInflight_mem : (s.setInflight f).mem = s.mem := rfl
@[simp] theorem State.setInflight_turns : (s.setInflight f).turns = s.turns := rfl
@[simp] theorem State.setInflight_readData : (s.setInflight f).readData = s.readData := rfl
@[simp] theorem State.setInflight_draws : (s.setInflight f).draws = s.draws := rfl

end SetInflight

section SetReadData
variable (s : State) (v : Word)

@[simp] theorem State.setReadData_cfg : (s.setReadData v).cfg = s.cfg := rfl
@[simp] theorem State.setReadData_rst : (s.setReadData v).rst = s.rst := rfl
@[simp] theorem State.setReadData_doneIe : (s.setReadData v).doneIe = s.doneIe := rfl
@[simp] theorem State.setReadData_errIe : (s.setReadData v).errIe = s.errIe := rfl
@[simp] theorem State.setReadData_done : (s.setReadData v).done = s.done := rfl
@[simp] theorem State.setReadData_err : (s.setReadData v).err = s.err := rfl
@[simp] theorem State.setReadData_ovr : (s.setReadData v).ovr = s.ovr := rfl
@[simp] theorem State.setReadData_errcode : (s.setReadData v).errcode = s.errcode := rfl
@[simp] theorem State.setReadData_result : (s.setReadData v).result = s.result := rfl
@[simp] theorem State.setReadData_dst : (s.setReadData v).dst = s.dst := rfl
@[simp] theorem State.setReadData_src : (s.setReadData v).src = s.src := rfl
@[simp] theorem State.setReadData_coef : (s.setReadData v).coef = s.coef := rfl
@[simp] theorem State.setReadData_len : (s.setReadData v).len = s.len := rfl
@[simp] theorem State.setReadData_solver : (s.setReadData v).solver = s.solver := rfl
@[simp] theorem State.setReadData_inflight : (s.setReadData v).inflight = s.inflight := rfl
@[simp] theorem State.setReadData_mem : (s.setReadData v).mem = s.mem := rfl
@[simp] theorem State.setReadData_turns : (s.setReadData v).turns = s.turns := rfl
@[simp] theorem State.setReadData_readData : (s.setReadData v).readData = v := rfl
@[simp] theorem State.setReadData_draws : (s.setReadData v).draws = s.draws := rfl

end SetReadData

section SetTurns
variable (s : State) (ts : List Turn)

@[simp] theorem State.setTurns_cfg : (s.setTurns ts).cfg = s.cfg := rfl
@[simp] theorem State.setTurns_rst : (s.setTurns ts).rst = s.rst := rfl
@[simp] theorem State.setTurns_doneIe : (s.setTurns ts).doneIe = s.doneIe := rfl
@[simp] theorem State.setTurns_errIe : (s.setTurns ts).errIe = s.errIe := rfl
@[simp] theorem State.setTurns_done : (s.setTurns ts).done = s.done := rfl
@[simp] theorem State.setTurns_err : (s.setTurns ts).err = s.err := rfl
@[simp] theorem State.setTurns_ovr : (s.setTurns ts).ovr = s.ovr := rfl
@[simp] theorem State.setTurns_errcode : (s.setTurns ts).errcode = s.errcode := rfl
@[simp] theorem State.setTurns_result : (s.setTurns ts).result = s.result := rfl
@[simp] theorem State.setTurns_dst : (s.setTurns ts).dst = s.dst := rfl
@[simp] theorem State.setTurns_src : (s.setTurns ts).src = s.src := rfl
@[simp] theorem State.setTurns_coef : (s.setTurns ts).coef = s.coef := rfl
@[simp] theorem State.setTurns_len : (s.setTurns ts).len = s.len := rfl
@[simp] theorem State.setTurns_solver : (s.setTurns ts).solver = s.solver := rfl
@[simp] theorem State.setTurns_inflight : (s.setTurns ts).inflight = s.inflight := rfl
@[simp] theorem State.setTurns_mem : (s.setTurns ts).mem = s.mem := rfl
@[simp] theorem State.setTurns_turns : (s.setTurns ts).turns = ts := rfl
@[simp] theorem State.setTurns_readData : (s.setTurns ts).readData = s.readData := rfl
@[simp] theorem State.setTurns_draws : (s.setTurns ts).draws = s.draws := rfl

end SetTurns

section Issue
variable (s : State) (w : Word)

@[simp] theorem State.issue_cfg : (s.issue w).cfg = s.cfg := rfl
@[simp] theorem State.issue_rst : (s.issue w).rst = s.rst := rfl
@[simp] theorem State.issue_doneIe : (s.issue w).doneIe = s.doneIe := rfl
@[simp] theorem State.issue_errIe : (s.issue w).errIe = s.errIe := rfl
@[simp] theorem State.issue_done : (s.issue w).done = false := rfl
@[simp] theorem State.issue_err : (s.issue w).err = s.err := rfl
@[simp] theorem State.issue_ovr : (s.issue w).ovr = s.ovr := rfl
@[simp] theorem State.issue_errcode : (s.issue w).errcode = s.errcode := rfl
@[simp] theorem State.issue_result : (s.issue w).result = s.result := rfl
@[simp] theorem State.issue_dst : (s.issue w).dst = s.dst := rfl
@[simp] theorem State.issue_src : (s.issue w).src = s.src := rfl
@[simp] theorem State.issue_coef : (s.issue w).coef = s.coef := rfl
@[simp] theorem State.issue_len : (s.issue w).len = s.len := rfl
@[simp] theorem State.issue_solver : (s.issue w).solver = s.solver := rfl
@[simp] theorem State.issue_inflight : (s.issue w).inflight = some (s.freshFlight w) := rfl
@[simp] theorem State.issue_mem : (s.issue w).mem = s.mem := rfl
@[simp] theorem State.issue_turns : (s.issue w).turns = s.turns := rfl
@[simp] theorem State.issue_readData : (s.issue w).readData = s.readData := rfl
@[simp] theorem State.issue_draws : (s.issue w).draws = s.draws := rfl

end Issue

section ErrorCompletion
variable (s : State) (e : ErrCode)

@[simp] theorem State.errorCompletion_cfg : (s.errorCompletion e).cfg = s.cfg := rfl
@[simp] theorem State.errorCompletion_rst : (s.errorCompletion e).rst = s.rst := rfl
@[simp] theorem State.errorCompletion_doneIe : (s.errorCompletion e).doneIe = s.doneIe := rfl
@[simp] theorem State.errorCompletion_errIe : (s.errorCompletion e).errIe = s.errIe := rfl
@[simp] theorem State.errorCompletion_done : (s.errorCompletion e).done = true := rfl
@[simp] theorem State.errorCompletion_err : (s.errorCompletion e).err = true := rfl
@[simp] theorem State.errorCompletion_ovr : (s.errorCompletion e).ovr = s.ovr := rfl
@[simp] theorem State.errorCompletion_errcode : (s.errorCompletion e).errcode = e := rfl
@[simp] theorem State.errorCompletion_result : (s.errorCompletion e).result = s.result := rfl
@[simp] theorem State.errorCompletion_dst : (s.errorCompletion e).dst = s.dst := rfl
@[simp] theorem State.errorCompletion_src : (s.errorCompletion e).src = s.src := rfl
@[simp] theorem State.errorCompletion_coef : (s.errorCompletion e).coef = s.coef := rfl
@[simp] theorem State.errorCompletion_len : (s.errorCompletion e).len = s.len := rfl
@[simp] theorem State.errorCompletion_solver : (s.errorCompletion e).solver = s.solver := rfl
@[simp] theorem State.errorCompletion_inflight : (s.errorCompletion e).inflight = none := rfl
@[simp] theorem State.errorCompletion_mem : (s.errorCompletion e).mem = s.mem := rfl
@[simp] theorem State.errorCompletion_turns : (s.errorCompletion e).turns = s.turns := rfl
@[simp] theorem State.errorCompletion_readData : (s.errorCompletion e).readData = s.readData := rfl
@[simp] theorem State.errorCompletion_draws : (s.errorCompletion e).draws = s.draws := rfl

end ErrorCompletion

section SuccessCompletion
variable (s : State)

@[simp] theorem State.successCompletion_cfg : s.successCompletion.cfg = s.cfg := rfl
@[simp] theorem State.successCompletion_rst : s.successCompletion.rst = s.rst := rfl
@[simp] theorem State.successCompletion_doneIe : s.successCompletion.doneIe = s.doneIe := rfl
@[simp] theorem State.successCompletion_errIe : s.successCompletion.errIe = s.errIe := rfl
@[simp] theorem State.successCompletion_done : s.successCompletion.done = true := rfl
@[simp] theorem State.successCompletion_err : s.successCompletion.err = s.err := rfl
@[simp] theorem State.successCompletion_ovr : s.successCompletion.ovr = s.ovr := rfl
@[simp] theorem State.successCompletion_errcode : s.successCompletion.errcode = .noError := rfl
@[simp] theorem State.successCompletion_result : s.successCompletion.result = s.result := rfl
@[simp] theorem State.successCompletion_dst : s.successCompletion.dst = s.dst := rfl
@[simp] theorem State.successCompletion_src : s.successCompletion.src = s.src := rfl
@[simp] theorem State.successCompletion_coef : s.successCompletion.coef = s.coef := rfl
@[simp] theorem State.successCompletion_len : s.successCompletion.len = s.len := rfl
@[simp] theorem State.successCompletion_solver : s.successCompletion.solver = s.solver := rfl
@[simp] theorem State.successCompletion_inflight : s.successCompletion.inflight = none := rfl
@[simp] theorem State.successCompletion_mem : s.successCompletion.mem = s.mem := rfl
@[simp] theorem State.successCompletion_turns : s.successCompletion.turns = s.turns := rfl
@[simp] theorem State.successCompletion_readData : s.successCompletion.readData = s.readData := rfl
@[simp] theorem State.successCompletion_draws : s.successCompletion.draws = s.draws := rfl

end SuccessCompletion

section SetOvr
variable (s : State)

@[simp] theorem State.setOvr_cfg : s.setOvr.cfg = s.cfg := rfl
@[simp] theorem State.setOvr_rst : s.setOvr.rst = s.rst := rfl
@[simp] theorem State.setOvr_doneIe : s.setOvr.doneIe = s.doneIe := rfl
@[simp] theorem State.setOvr_errIe : s.setOvr.errIe = s.errIe := rfl
@[simp] theorem State.setOvr_done : s.setOvr.done = s.done := rfl
@[simp] theorem State.setOvr_err : s.setOvr.err = s.err := rfl
@[simp] theorem State.setOvr_ovr : s.setOvr.ovr = true := rfl
@[simp] theorem State.setOvr_errcode : s.setOvr.errcode = s.errcode := rfl
@[simp] theorem State.setOvr_result : s.setOvr.result = s.result := rfl
@[simp] theorem State.setOvr_dst : s.setOvr.dst = s.dst := rfl
@[simp] theorem State.setOvr_src : s.setOvr.src = s.src := rfl
@[simp] theorem State.setOvr_coef : s.setOvr.coef = s.coef := rfl
@[simp] theorem State.setOvr_len : s.setOvr.len = s.len := rfl
@[simp] theorem State.setOvr_solver : s.setOvr.solver = s.solver := rfl
@[simp] theorem State.setOvr_inflight : s.setOvr.inflight = s.inflight := rfl
@[simp] theorem State.setOvr_mem : s.setOvr.mem = s.mem := rfl
@[simp] theorem State.setOvr_turns : s.setOvr.turns = s.turns := rfl
@[simp] theorem State.setOvr_readData : s.setOvr.readData = s.readData := rfl
@[simp] theorem State.setOvr_draws : s.setOvr.draws = s.draws := rfl

end SetOvr

section WriteCtrl
variable (s : State) (v : Word)

@[simp] theorem State.writeCtrl_cfg : (s.writeCtrl v).cfg = s.cfg := rfl
@[simp] theorem State.writeCtrl_rst : (s.writeCtrl v).rst = s.rst := rfl
@[simp] theorem State.writeCtrl_doneIe : (s.writeCtrl v).doneIe = v.getLsbD 0 := rfl
@[simp] theorem State.writeCtrl_errIe : (s.writeCtrl v).errIe = v.getLsbD 1 := rfl
@[simp] theorem State.writeCtrl_done : (s.writeCtrl v).done = s.done := rfl
@[simp] theorem State.writeCtrl_err : (s.writeCtrl v).err = s.err := rfl
@[simp] theorem State.writeCtrl_ovr : (s.writeCtrl v).ovr = s.ovr := rfl
@[simp] theorem State.writeCtrl_errcode : (s.writeCtrl v).errcode = s.errcode := rfl
@[simp] theorem State.writeCtrl_result : (s.writeCtrl v).result = s.result := rfl
@[simp] theorem State.writeCtrl_dst : (s.writeCtrl v).dst = s.dst := rfl
@[simp] theorem State.writeCtrl_src : (s.writeCtrl v).src = s.src := rfl
@[simp] theorem State.writeCtrl_coef : (s.writeCtrl v).coef = s.coef := rfl
@[simp] theorem State.writeCtrl_len : (s.writeCtrl v).len = s.len := rfl
@[simp] theorem State.writeCtrl_solver : (s.writeCtrl v).solver = s.solver := rfl
@[simp] theorem State.writeCtrl_inflight : (s.writeCtrl v).inflight = s.inflight := rfl
@[simp] theorem State.writeCtrl_mem : (s.writeCtrl v).mem = s.mem := rfl
@[simp] theorem State.writeCtrl_turns : (s.writeCtrl v).turns = s.turns := rfl
@[simp] theorem State.writeCtrl_readData : (s.writeCtrl v).readData = s.readData := rfl
@[simp] theorem State.writeCtrl_draws : (s.writeCtrl v).draws = s.draws := rfl

end WriteCtrl

section WriteStatus
variable (s : State) (v : Word)

@[simp] theorem State.writeStatus_cfg : (s.writeStatus v).cfg = s.cfg := rfl
@[simp] theorem State.writeStatus_rst : (s.writeStatus v).rst = s.rst := rfl
@[simp] theorem State.writeStatus_doneIe : (s.writeStatus v).doneIe = s.doneIe := rfl
@[simp] theorem State.writeStatus_errIe : (s.writeStatus v).errIe = s.errIe := rfl
@[simp] theorem State.writeStatus_done : (s.writeStatus v).done = (s.done && !v.getLsbD 1) := rfl
@[simp] theorem State.writeStatus_err : (s.writeStatus v).err = (s.err && !v.getLsbD 2) := rfl
@[simp] theorem State.writeStatus_ovr : (s.writeStatus v).ovr = (s.ovr && !v.getLsbD 3) := rfl
@[simp] theorem State.writeStatus_errcode : (s.writeStatus v).errcode = s.errcode := rfl
@[simp] theorem State.writeStatus_result : (s.writeStatus v).result = s.result := rfl
@[simp] theorem State.writeStatus_dst : (s.writeStatus v).dst = s.dst := rfl
@[simp] theorem State.writeStatus_src : (s.writeStatus v).src = s.src := rfl
@[simp] theorem State.writeStatus_coef : (s.writeStatus v).coef = s.coef := rfl
@[simp] theorem State.writeStatus_len : (s.writeStatus v).len = s.len := rfl
@[simp] theorem State.writeStatus_solver : (s.writeStatus v).solver = s.solver := rfl
@[simp] theorem State.writeStatus_inflight : (s.writeStatus v).inflight = s.inflight := rfl
@[simp] theorem State.writeStatus_mem : (s.writeStatus v).mem = s.mem := rfl
@[simp] theorem State.writeStatus_turns : (s.writeStatus v).turns = s.turns := rfl
@[simp] theorem State.writeStatus_readData : (s.writeStatus v).readData = s.readData := rfl
@[simp] theorem State.writeStatus_draws : (s.writeStatus v).draws = s.draws := rfl

end WriteStatus

section Abandon
variable (s : State)

@[simp] theorem State.abandon_cfg : s.abandon.cfg = s.cfg := rfl
@[simp] theorem State.abandon_rst : s.abandon.rst = s.rst := rfl
@[simp] theorem State.abandon_doneIe : s.abandon.doneIe = s.doneIe := rfl
@[simp] theorem State.abandon_errIe : s.abandon.errIe = s.errIe := rfl
@[simp] theorem State.abandon_done : s.abandon.done = s.done := rfl
@[simp] theorem State.abandon_err : s.abandon.err = s.err := rfl
@[simp] theorem State.abandon_ovr : s.abandon.ovr = s.ovr := rfl
@[simp] theorem State.abandon_errcode : s.abandon.errcode = s.errcode := rfl
@[simp] theorem State.abandon_result : s.abandon.result = s.result := rfl
@[simp] theorem State.abandon_dst : s.abandon.dst = s.dst := rfl
@[simp] theorem State.abandon_src : s.abandon.src = s.src := rfl
@[simp] theorem State.abandon_coef : s.abandon.coef = s.coef := rfl
@[simp] theorem State.abandon_len : s.abandon.len = s.len := rfl
@[simp] theorem State.abandon_solver : s.abandon.solver = s.solver := rfl
@[simp] theorem State.abandon_inflight : s.abandon.inflight = s.inflight := rfl
@[simp] theorem State.abandon_mem : s.abandon.mem = s.mem.scramble s.writtenFootprint.1 s.draws s.writtenFootprint.2 := rfl
@[simp] theorem State.abandon_turns : s.abandon.turns = s.turns := rfl
@[simp] theorem State.abandon_readData : s.abandon.readData = s.readData := rfl
@[simp] theorem State.abandon_draws : s.abandon.draws = s.draws + s.writtenFootprint.2 := rfl

end Abandon

section ResetUnit
variable (s : State)

@[simp] theorem State.resetUnit_cfg : s.resetUnit.cfg = s.cfg := rfl
@[simp] theorem State.resetUnit_rst : s.resetUnit.rst = s.rst := rfl
@[simp] theorem State.resetUnit_doneIe : s.resetUnit.doneIe = false := rfl
@[simp] theorem State.resetUnit_errIe : s.resetUnit.errIe = false := rfl
@[simp] theorem State.resetUnit_done : s.resetUnit.done = false := rfl
@[simp] theorem State.resetUnit_err : s.resetUnit.err = false := rfl
@[simp] theorem State.resetUnit_ovr : s.resetUnit.ovr = false := rfl
@[simp] theorem State.resetUnit_errcode : s.resetUnit.errcode = .noError := rfl
@[simp] theorem State.resetUnit_result : s.resetUnit.result = 0 := rfl
@[simp] theorem State.resetUnit_dst : s.resetUnit.dst = 0 := rfl
@[simp] theorem State.resetUnit_src : s.resetUnit.src = 0 := rfl
@[simp] theorem State.resetUnit_coef : s.resetUnit.coef = 0 := rfl
@[simp] theorem State.resetUnit_len : s.resetUnit.len = 0 := rfl
@[simp] theorem State.resetUnit_solver : s.resetUnit.solver = Solver.clear := rfl
@[simp] theorem State.resetUnit_inflight : s.resetUnit.inflight = none := rfl
@[simp] theorem State.resetUnit_mem : s.resetUnit.mem = s.mem := rfl
@[simp] theorem State.resetUnit_turns : s.resetUnit.turns = s.turns := rfl
@[simp] theorem State.resetUnit_readData : s.resetUnit.readData = s.readData := rfl
@[simp] theorem State.resetUnit_draws : s.resetUnit.draws = s.draws := rfl

end ResetUnit

section PowerUp
variable (c : Config)

@[simp] theorem State.powerUp_cfg : (State.powerUp c).cfg = c := rfl
@[simp] theorem State.powerUp_rst : (State.powerUp c).rst = false := rfl
@[simp] theorem State.powerUp_doneIe : (State.powerUp c).doneIe = false := rfl
@[simp] theorem State.powerUp_errIe : (State.powerUp c).errIe = false := rfl
@[simp] theorem State.powerUp_done : (State.powerUp c).done = false := rfl
@[simp] theorem State.powerUp_err : (State.powerUp c).err = false := rfl
@[simp] theorem State.powerUp_ovr : (State.powerUp c).ovr = false := rfl
@[simp] theorem State.powerUp_errcode : (State.powerUp c).errcode = .noError := rfl
@[simp] theorem State.powerUp_result : (State.powerUp c).result = 0 := rfl
@[simp] theorem State.powerUp_dst : (State.powerUp c).dst = 0 := rfl
@[simp] theorem State.powerUp_src : (State.powerUp c).src = 0 := rfl
@[simp] theorem State.powerUp_coef : (State.powerUp c).coef = 0 := rfl
@[simp] theorem State.powerUp_len : (State.powerUp c).len = 0 := rfl
@[simp] theorem State.powerUp_solver : (State.powerUp c).solver = Solver.clear := rfl
@[simp] theorem State.powerUp_inflight : (State.powerUp c).inflight = none := rfl
@[simp] theorem State.powerUp_mem : (State.powerUp c).mem = [] := rfl
@[simp] theorem State.powerUp_turns : (State.powerUp c).turns = [] := rfl
@[simp] theorem State.powerUp_readData : (State.powerUp c).readData = 0 := rfl
@[simp] theorem State.powerUp_draws : (State.powerUp c).draws = 0 := rfl

end PowerUp

section FreshFlight
variable (s : State) (w : Word)

@[simp] theorem State.freshFlight_word : (s.freshFlight w).word = w := rfl
@[simp] theorem State.freshFlight_dst : (s.freshFlight w).dst = s.dst := rfl
@[simp] theorem State.freshFlight_src : (s.freshFlight w).src = s.src := rfl
@[simp] theorem State.freshFlight_coef : (s.freshFlight w).coef = s.coef := rfl
@[simp] theorem State.freshFlight_len : (s.freshFlight w).len = s.len := rfl
@[simp] theorem State.freshFlight_made : (s.freshFlight w).made = 0 := rfl
@[simp] theorem State.freshFlight_fetched : (s.freshFlight w).fetched = [] := rfl

end FreshFlight

/-- BUSY is the presence of a command in flight (R21). -/
theorem State.busy_iff (s : State) : s.busy = true ↔ ∃ f, s.inflight = some f := Option.isSome_iff_exists

@[simp] theorem State.busy_none (s : State) (h : s.inflight = none) : s.busy = false := by simp [State.busy, h]

@[simp] theorem State.busy_some (s : State) (f : InFlight) (h : s.inflight = some f) : s.busy = true := by
  simp [State.busy, h]

end Sys2Proof.Machine
end

