-- ==== Sys2Proof/Laws/Ops.lean ====
section
/-! SUPPORT. What each shared operation can do, said once: the end of a command, the checks, the accesses of the unit, the
steps of the engine and of the host. -/

namespace Sys2Proof.Machine

section Conclude
variable (s t : State)

@[simp] theorem conclude_none : s.conclude none t = .next t.successCompletion := rfl

@[simp] theorem conclude_some (e : ErrCode) : s.conclude (some e) t = .next (s.errorCompletion e) := rfl

/-- The end of a command is one of the two completions of R106 and R107. -/
theorem conclude_next (e : Option ErrCode) (u : State) (h : s.conclude e t = .next u) :
    (∃ c, e = some c ∧ u = s.errorCompletion c) ∨ (e = none ∧ u = t.successCompletion) := by
  cases e with
  | none => exact .inr ⟨rfl, by simpa using h.symm⟩
  | some c => exact .inl ⟨c, rfl, by simpa using h.symm⟩

end Conclude

section Checks

@[simp] theorem firstError_nil : firstError [] = none := rfl

@[simp] theorem firstError_cons (b : Bool) (e : ErrCode) (l : List (Bool × ErrCode)) :
    firstError ((b, e) :: l) = if b then some e else firstError l := rfl

@[simp] theorem inRange_iff (cfg : Config) (a n : Nat) : inRange cfg a n = true ↔ a + n ≤ cfg.memSize := by
  simp [inRange]

@[simp] theorem overlapping_iff (d s n : Nat) :
    overlapping d s n = true ↔ 0 < n ∧ d ≠ s ∧ d < s + n ∧ s < d + n := by
  simp [overlapping]

@[simp] theorem inBuffer_iff (a : Nat) (b : Nat × Nat) : inBuffer a b = true ↔ b.1 ≤ a ∧ a < b.1 + b.2 := by
  simp [inBuffer]

/-- The checks look at the parameters, the solver and the latched operands only. -/
theorem errorOf_congr (i : Instr) {s t : State} {f g : InFlight} (hc : s.cfg = t.cfg) (hs : s.solver = t.solver)
    (hd : f.dst = g.dst) (hr : f.src = g.src) (ho : f.coef = g.coef) (hl : f.len = g.len) :
    errorOf i s f = errorOf i t g := by
  obtain ⟨wf, df, rf, kf, lf, mf, bf⟩ := f
  obtain ⟨wg, dg, rg, kg, lg, mg, bg⟩ := g
  simp only at hd hr ho hl
  subst hd hr ho hl
  cases i <;> simp only [errorOf, hc, hs] <;> rfl

theorem accessTotal_congr (i : Instr) {s t : State} {f g : InFlight} (hc : s.cfg = t.cfg) (hs : s.solver = t.solver)
    (hd : f.dst = g.dst) (hr : f.src = g.src) (ho : f.coef = g.coef) (hl : f.len = g.len) :
    accessTotal i s f = accessTotal i t g := by
  unfold accessTotal
  rw [errorOf_congr i hc hs hd hr ho hl]
  cases i <;> simp only [InFlight.lenNat, hs, hl]

end Checks

section Flight
variable (s : State) (i : Instr)

@[simp] theorem flight_some (f : InFlight) (h : s.inflight = some f) : s.flight i = f := by
  simp [State.flight, h]

@[simp] theorem flight_none (h : s.inflight = none) : s.flight i = s.freshFlight (encode i) := by
  simp [State.flight, h]

end Flight

section Accesses
variable (fm : InFlight × Memory) (a : Nat) (v : Byte)

@[simp] theorem fetchByte_mem : (fetchByte a fm).2 = fm.2 := rfl
@[simp] theorem fetchByte_made : (fetchByte a fm).1.made = fm.1.made + 1 := rfl
@[simp] theorem fetchByte_fetched : (fetchByte a fm).1.fetched = fm.1.fetched ++ [fm.2.read a] := rfl
@[simp] theorem storeByte_mem : (storeByte a v fm).2 = fm.2.write a v := rfl
@[simp] theorem storeByte_made : (storeByte a v fm).1.made = fm.1.made + 1 := rfl
@[simp] theorem storeByte_fetched : (storeByte a v fm).1.fetched = [] := rfl

/-- An access leaves the word and the operands of the command in flight alone (R44). -/
def sameOperands (f g : InFlight) : Prop :=
  f.word = g.word ∧ f.dst = g.dst ∧ f.src = g.src ∧ f.coef = g.coef ∧ f.len = g.len

theorem fetchByte_operands : sameOperands (fetchByte a fm).1 fm.1 := ⟨rfl, rfl, rfl, rfl, rfl⟩

theorem storeByte_operands : sameOperands (storeByte a v fm).1 fm.1 := ⟨rfl, rfl, rfl, rfl, rfl⟩

theorem macAccess_operands (p : BitVec 9) (c : Byte) : sameOperands (macAccess p c fm).1 fm.1 := by
  unfold macAccess
  split
  · exact fetchByte_operands ..
  · split
    · exact fetchByte_operands ..
    · exact storeByte_operands ..

@[simp] theorem macAccess_made (p : BitVec 9) (c : Byte) : (macAccess p c fm).1.made = fm.1.made + 1 := by
  unfold macAccess
  split
  · rfl
  · split <;> rfl

theorem sinsAccess_operands (w : Nat) : sameOperands (sinsAccess w fm).1 fm.1 := by
  unfold sinsAccess
  split <;> exact fetchByte_operands ..

@[simp] theorem sinsAccess_made (w : Nat) : (sinsAccess w fm).1.made = fm.1.made + 1 := by
  unfold sinsAccess
  split <;> rfl

/-- SINS writes no memory (R58). -/
@[simp] theorem sinsAccess_mem (w : Nat) : (sinsAccess w fm).2 = fm.2 := by
  unfold sinsAccess
  split <;> rfl

theorem ssolAccess_operands (xs : List (List Byte)) (n : Nat) : sameOperands (ssolAccess xs n fm).1 fm.1 :=
  storeByte_operands ..

@[simp] theorem ssolAccess_made (xs : List (List Byte)) (n : Nat) : (ssolAccess xs n fm).1.made = fm.1.made + 1 := rfl

/-- The accesses still to make are the next one and then the rest. -/
theorem runAccesses_step (access : InFlight × Memory → InFlight × Memory) (total : Nat) (f : InFlight) (m : Memory)
    (hmade : (access (f, m)).1.made = f.made + 1) (h : f.made < total) :
    runAccesses access total f m = runAccesses access total (access (f, m)).1 (access (f, m)).2 := by
  unfold runAccesses
  rw [hmade, show total - f.made = (total - (f.made + 1)) + 1 by omega, Function.iterate_succ_apply]

/-- No access is left. -/
theorem runAccesses_done (access : InFlight × Memory → InFlight × Memory) (total : Nat) (f : InFlight) (m : Memory)
    (h : total ≤ f.made) : runAccesses access total f m = (f, m) := by
  unfold runAccesses
  rw [Nat.sub_eq_zero_of_le h]
  rfl

/-- What every access keeps holds after all of them. -/
theorem runAccesses_induct (access : InFlight × Memory → InFlight × Memory) (total : Nat) (f : InFlight) (m : Memory)
    (Keeps : InFlight × Memory → Prop) (h0 : Keeps (f, m)) (hs : ∀ fm, Keeps fm → Keeps (access fm)) :
    Keeps (runAccesses access total f m) := by
  unfold runAccesses
  induction total - f.made with
  | zero => exact h0
  | succ n ih => rw [Function.iterate_succ_apply']; exact hs _ ih

end Accesses

section Engine
variable (s : State)

/-- The engine idles when nothing is in flight (R118). -/
theorem engineStep_idle (h : s.inflight = none) : engineStep s = .next s := by simp [engineStep, h]

/-- The engine completes an illegal word (R110). -/
theorem engineStep_illegal (f : InFlight) (e : Illegal) (h : s.inflight = some f) (hd : decode f.word = .error e) :
    engineStep s = .next (s.errorCompletion .illegal) := by simp [engineStep, h, hd]

/-- The engine makes one access while accesses remain (R56). -/
theorem engineStep_access (f : InFlight) (i : Instr) (h : s.inflight = some f) (hd : decode f.word = .ok i)
    (hm : f.made < accessTotal i s f) :
    engineStep s =
      .next ((s.setMem (accessOnce i s (f, s.mem)).2).setInflight (accessOnce i s (f, s.mem)).1) := by
  simp [engineStep, h, hd, hm]

/-- The engine completes the command when no access remains (R56). -/
theorem engineStep_complete (f : InFlight) (i : Instr) (h : s.inflight = some f) (hd : decode f.word = .ok i)
    (hm : ¬ f.made < accessTotal i s f) : engineStep s = exec i s := by
  simp [engineStep, h, hd, hm]

/-- Everything a step of the engine can do. -/
theorem engineStep_cases :
    (s.inflight = none ∧ engineStep s = .next s) ∨
    (∃ f e, s.inflight = some f ∧ decode f.word = .error e ∧ engineStep s = .next (s.errorCompletion .illegal)) ∨
    (∃ f i, s.inflight = some f ∧ decode f.word = .ok i ∧ f.made < accessTotal i s f ∧
      engineStep s =
        .next ((s.setMem (accessOnce i s (f, s.mem)).2).setInflight (accessOnce i s (f, s.mem)).1)) ∨
    (∃ f i, s.inflight = some f ∧ decode f.word = .ok i ∧ ¬ f.made < accessTotal i s f ∧ engineStep s = exec i s) := by
  cases h : s.inflight with
  | none => exact .inl ⟨rfl, engineStep_idle s h⟩
  | some f =>
    refine .inr ?_
    cases hd : decode f.word with
    | error e => exact .inl ⟨f, e, rfl, hd, engineStep_illegal s f e h hd⟩
    | ok i =>
      refine .inr ?_
      by_cases hm : f.made < accessTotal i s f
      · exact .inl ⟨f, i, rfl, hd, hm, engineStep_access s f i h hd hm⟩
      · exact .inr ⟨f, i, rfl, hd, hm, engineStep_complete s f i h hd hm⟩

end Engine

section HostSteps
variable (s : State)

/-- Every register is found at its offset (R15). -/
@[simp] theorem regAt_offset (r : Reg) : regAt r.offset = some r := by cases r <;> rfl

@[simp] theorem readOffset_reg (r : Reg) : s.readOffset r.offset = s.readReg r := by simp [State.readOffset]

@[simp] theorem writeOffset_reg (r : Reg) (v : Word) : s.writeOffset r.offset v = s.writeReg r v := by
  simp [State.writeOffset]

/-- An aligned 32-bit access to a register is not refused, `rst` deasserted (R51). -/
theorem busRefusal_reg (r : Reg) (h : s.rst = false) : s.busRefusal (s.cfg.gfuBase + r.offset) 4 = none := by
  have hr : r.offset < 256 ∧ r.offset % 4 = 0 := by cases r <;> decide
  rw [State.busRefusal, if_neg (by omega), if_neg (by simp [h]), if_neg (by omega)]

/-- A host access that steps on was not refused. -/
theorem busRead_next (addr bytes : Nat) (t : State) (h : busRead addr bytes s = .next t) :
    s.busRefusal addr bytes = none ∧ t = s.setReadData (s.readOffset (addr - s.cfg.gfuBase)) := by
  unfold busRead at h
  split at h
  · cases h
  · next hr => exact ⟨hr, by simpa using h.symm⟩

theorem busWrite_next (addr bytes : Nat) (v : Word) (t : State) (h : busWrite addr bytes v s = .next t) :
    s.busRefusal addr bytes = none ∧ t = s.writeOffset (addr - s.cfg.gfuBase) v := by
  unfold busWrite at h
  split at h
  · cases h
  · next hr => exact ⟨hr, by simpa using h.symm⟩

theorem hostRead_next (a : Nat) (t : State) (h : hostRead a s = .next t) :
    a < s.cfg.memSize ∧ s.readRaces a = false ∧ t = s.setReadData ((s.mem.read a).setWidth 32) := by
  unfold hostRead at h
  split at h
  · cases h
  · next ha =>
    split at h
    · cases h
    · next hr => exact ⟨by omega, by simpa using hr, by simpa using h.symm⟩

theorem hostWrite_next (a : Nat) (v : Byte) (t : State) (h : hostWrite a v s = .next t) :
    a < s.cfg.memSize ∧ s.writeRaces a = false ∧ t = s.setMem (s.mem.write a v) := by
  unfold hostWrite at h
  split at h
  · cases h
  · next ha =>
    split at h
    · cases h
    · next hr => exact ⟨by omega, by simpa using hr, by simpa using h.symm⟩

theorem unlessBusy_idle (t : State) (h : s.busy = false) : s.unlessBusy t = t := by simp [State.unlessBusy, h]

theorem unlessBusy_busy (t : State) (h : s.busy = true) : s.unlessBusy t = s.setOvr := by simp [State.unlessBusy, h]

/-- Everything a write to the register block can do (R29, R42, R43). -/
theorem writeOffset_cases (off : Nat) (v : Word) :
    s.writeOffset off v = s ∨ s.writeOffset off v = s.writeCtrl v ∨ s.writeOffset off v = s.writeStatus v ∨
    (s.busy = true ∧ s.writeOffset off v = s.setOvr) ∨
    (s.busy = false ∧ (s.writeOffset off v = s.issue v ∨ s.writeOffset off v = { s with dst := v } ∨
      s.writeOffset off v = { s with src := v } ∨ s.writeOffset off v = { s with coef := v } ∨
      s.writeOffset off v = { s with len := v })) := by
  unfold State.writeOffset
  cases regAt off with
  | none => exact .inl rfl
  | some r => cases r <;> cases hb : s.busy <;> simp [State.writeReg, State.unlessBusy, hb]

end HostSteps

section Step

/-- One step: the listed turn, or the engine's (log 1). -/
theorem step_nil (s : State) (h : s.turns = []) : step s = engineStep s := by simp [step, h]

theorem step_cons (s : State) (t : Turn) (ts : List Turn) (h : s.turns = t :: ts) :
    step s = takeTurn t (s.setTurns ts) := by simp [step, h]

end Step

end Sys2Proof.Machine
end

