-- ==== Sys2Proof/Laws/PerInstr.lean ====
section
/-! SUPPORT. A fact about every command as syntax: its word lies in its row of the opcode map (30_encoding.md R67). -/

namespace Sys2Proof.Laws.TableRow

/-- The word of the command selects its row: `(w & mask) = match` (R67). -/
def Statement (i : Instr) : Prop := encode i &&& tableMask i = tableMatch i

/-- A mask applied to four bytes, byte by byte. -/
theorem bytes_and (b3 b2 b1 b0 m3 m2 m1 m0 : BitVec 8) :
    b3 ++ b2 ++ b1 ++ b0 &&& m3 ++ m2 ++ m1 ++ m0 = (b3 &&& m3) ++ (b2 &&& m2) ++ (b1 &&& m1) ++ (b0 &&& m0) := by
  rw [BitVec.and_append, BitVec.and_append, BitVec.and_append]

/-- A mask applied to a format-F word. -/
theorem formatF_and (opc a b m3 m2 m1 m0 : BitVec 8) :
    formatF opc a b &&& (m3 ++ m2 ++ m1 ++ m0) = (opc &&& m3) ++ (a &&& m2) ++ (b &&& m1) ++ (0x00#8 &&& m0) :=
  bytes_and ..

/-- A mask applied to two bytes and a half word. -/
theorem halves_and (b2 b1 m2 m1 : BitVec 8) (b0 m0 : BitVec 16) :
    b2 ++ b1 ++ b0 &&& m2 ++ m1 ++ m0 = (b2 &&& m2) ++ (b1 &&& m1) ++ (b0 &&& m0) := by
  rw [BitVec.and_append, BitVec.and_append]

/-- A mask applied to a format-W word. -/
theorem formatW_and (opc m2 m1 : BitVec 8) (n : Nat) (m0 : BitVec 16) :
    formatW opc n &&& (m2 ++ m1 ++ m0) = (opc &&& m2) ++ (0x00#8 &&& m1) ++ (BitVec.ofNat 16 n &&& m0) :=
  halves_and ..

theorem add (a b : Byte) : Statement (.add a b) :=
  (formatF_and 0x01 a b 0xFF 0x00 0x00 0xFF).trans (by simp; rfl)

theorem mul (a b : Byte) : Statement (.mul a b) :=
  (formatF_and 0x02 a b 0xFF 0x00 0x00 0xFF).trans (by simp; rfl)

theorem div (a b : Byte) : Statement (.div a b) :=
  (formatF_and 0x03 a b 0xFF 0x00 0x00 0xFF).trans (by simp; rfl)

theorem inv (a : Byte) : Statement (.inv a) :=
  (formatF_and 0x04 a 0x00 0xFF 0x00 0xFF 0xFF).trans (by simp; rfl)

theorem mac (c : Byte) : Statement (.mac c) :=
  (formatF_and 0x08 c 0x00 0xFF 0x00 0xFF 0xFF).trans (by simp; rfl)

theorem sclr : Statement .sclr := by unfold Statement; decide

theorem swid (n : Nat) : Statement (.swid n) :=
  (formatW_and 0x11 0xFF 0xFF n 0x0000).trans (by simp; rfl)

theorem sins : Statement .sins := by unfold Statement; decide

theorem ssol : Statement .ssol := by unfold Statement; decide

end Sys2Proof.Laws.TableRow
end

