-- ==== Sys2Proof/Tests/Slice0.lean ====
section
/-! SUPPORT. Tests against the words and values of the spec (30_encoding.md R66, R78, 95_test_vectors.md), the smoke test of
WellFormed, and for every statement with hypotheses a state that meets them. -/

set_option Elab.async false

namespace Sys2Proof.Tests

open Sys2Proof.Machine

/-- A field of the next state. -/
def ofNext {α : Type} (o : Host.Outcome State Fault Refusal) (f : State → α) : Option α :=
  match o with
  | .next t => some (f t)
  | .fault _ => none
  | .refused _ => none

/-- Bytes laid out from an address on. -/
def cells (a : Nat) (bs : List Byte) : Memory := bs.zipIdx.map fun x => (a + x.2, x.1)

/-- The reset state with turns to take. -/
def withTurns (ts : List Turn) : State := { State.reset with turns := ts }

/-- The reset state with DST, SRC, COEF and LEN set. -/
def withOperands (d s c n : Word) (m : Memory) : State :=
  { State.reset with dst := d, src := s, coef := c, len := n, mem := m }

/-- The reset state with the word `w` in flight. -/
def inFlight (w : Word) (ts : List Turn) (s : State) : State := { s.issue w with turns := ts }

/-! ### WellFormed -/

theorem test_wf_refuses_swid_65536 : Instr.wf (.swid 65536) = false := by decide
theorem test_wf_accepts_swid_65535 : Instr.wf (.swid 65535) = true := by decide

/-! ### Decoding: words written out bit by bit from R66 and R67 -/

theorem test_decode_add : decode 0b00000001_01010011_11001010_00000000#32 = .ok (.add 0x53 0xCA) := by decide
theorem test_decode_mul : decode 0b00000010_01010011_11001010_00000000#32 = .ok (.mul 0x53 0xCA) := by decide
theorem test_decode_div : decode 0b00000011_00000001_00000010_00000000#32 = .ok (.div 0x01 0x02) := by decide
theorem test_decode_inv : decode 0b00000100_00000010_00000000_00000000#32 = .ok (.inv 0x02) := by decide
theorem test_decode_mac : decode 0b00001000_00011101_00000000_00000000#32 = .ok (.mac 0x1D) := by decide
theorem test_decode_sclr : decode 0b00010000_00000000_00000000_00000000#32 = .ok .sclr := by decide
theorem test_decode_swid : decode 0b00010001_00000000_10000000_00000011#32 = .ok (.swid 0x8003) := by decide
theorem test_decode_sins : decode 0b00010010_00000000_00000000_00000000#32 = .ok .sins := by decide
theorem test_decode_ssol : decode 0b00010011_00000000_00000000_00000000#32 = .ok .ssol := by decide

/-- The illegal rows of 95_test_vectors.md §2. -/
theorem test_decode_illegal :
    ([0x00000000, 0x05000000, 0x07FFFFFF, 0x09000000, 0x0F000000, 0x14000000, 0xFF000000, 0xFFFFFFFF, 0x01000001,
      0x02AB0180, 0x030102FF, 0x04020100] ++
     [0x04020001, 0x08010100, 0x08010001, 0x10000001, 0x10010000, 0x11010003, 0x12000100, 0x13800000] : List Word).all
      (fun w => match decode w with | .ok _ => false | .error _ => true) = true := by decide

/-! ### Disassembly and assembly (R77, R73) -/

theorem test_disassemble_mul : disassemble 0x0253CA00 = "MUL 0x53, 0xca".toList := by decide
theorem test_disassemble_swid : disassemble 0x11000003 = "SWID 0x0003".toList := by decide
theorem test_disassemble_illegal : disassemble 0x02AB0180 = ".word 0x02AB0180".toList := by decide
theorem test_assemble_comment : assemble "  mul 83, 0xCa ; product".toList = .ok (.mul 0x53 0xCA) := by decide
theorem test_assemble_no_truncation : assemble "ADD 256, 1".toList = .error .doesNotFit := by decide

/-! ### One step from reset on the vectors of 95_test_vectors.md §4 to §6 -/

theorem test_add : ofNext (step (State.reset.withFetchWord 32 0x0153CA00)) State.result = some 0x99 := by decide
theorem test_mul : ofNext (step (State.reset.withFetchWord 32 0x02578300)) State.result = some 0x31 := by decide
theorem test_mul_reduction : ofNext (exec (.mul 0x80 0x80) State.reset) State.result = some 0x13 := by decide
theorem test_div : ofNext (exec (.div 0x12 0x34) State.reset) State.result = some 0xC7 := by decide +kernel
theorem test_div_zero : ofNext (exec (.div 0 0) State.reset) (fun t => (t.errcode, t.result, t.statusWord)) =
    some (.divZero, 0, 0x06) := by decide
theorem test_inv : ofNext (exec (.inv 0x53) State.reset) State.result = some 0x8C := by decide +kernel
theorem test_inv_zero : ofNext (exec (.inv 0) State.reset) (fun t => (t.errcode, t.result)) = some (.divZero, 0) := by
  decide

/-- §5 row 5. -/
theorem test_mac : ofNext
    (exec (.mac 0x83) (withOperands 0x100 0x200 0 4 (cells 0x100 [0x10, 0x20, 0x30, 0x40] ++
      cells 0x200 [0x53, 0xCA, 0xFF, 0x57]))) (fun t => t.mem.readMany 0x100 4) = some [0x17, 0x9E, 0x4E, 0x71] := by
  decide +kernel

/-- §5 row 18. -/
theorem test_mac_overlap : ofNext (exec (.mac 1) (withOperands 0x101 0x100 0 2 (cells 0x100 [1, 2, 3])))
    (fun t => (t.errcode, t.mem.readMany 0x100 3)) = some (.overlap, [1, 2, 3]) := by decide +kernel

theorem test_sclr : ofNext (exec .sclr { State.reset with solver := { width := 3, rows := [], slen := 0, dep := true } })
    (fun t => (t.solver.width, t.solver.dep)) = some (0, false) := by decide

/-- The example of R97. -/
theorem test_swid : ofNext (exec (.swid 3)
      { State.reset with solver := { width := 2, rows := [⟨[1, 1], []⟩], slen := 0, dep := false } })
    (fun t => (t.solver.width, t.solver.rows.map Row.coef)) = some (3, [[1, 1, 0]]) := by decide
theorem test_swid_shrink : ofNext (exec (.swid 1)
      { State.reset with solver := { width := 2, rows := [], slen := 0, dep := false } })
    (fun t => (t.solver.width, t.errcode.bits)) = some (2, 5) := by decide

/-- The example of R98: [2,2,2] = 2·[1,1,1] is dependent. -/
theorem test_sins_dependent : ofNext (exec .sins
      { withOperands 0 0x300 0x200 1 (cells 0x200 [2, 2, 2] ++ cells 0x300 [7]) with
        solver := { width := 3, rows := [⟨[1, 1, 1], [9]⟩], slen := 1, dep := false } })
    (fun t => (t.solver.rows.length, t.solver.dep)) = some (1, true) := by decide +kernel
theorem test_sins_accepted : ofNext (exec .sins
      { withOperands 0 0x300 0x200 1 (cells 0x200 [2, 2, 3] ++ cells 0x300 [7]) with
        solver := { width := 3, rows := [⟨[1, 1, 1], [9]⟩], slen := 1, dep := true } })
    (fun t => (t.solver.rows, t.solver.dep)) = some ([⟨[1, 1, 1], [9]⟩, ⟨[2, 2, 3], [7]⟩], false) := by decide +kernel

/-- §6.3: the zero-padded row and the second one. -/
theorem test_ssol : ofNext (exec .ssol
      { withOperands 0x400 0 0 0 [] with
        solver := { width := 2, rows := [⟨[5, 0], [0x0A]⟩, ⟨[3, 1], [0x0B]⟩], slen := 1, dep := false } })
    (fun t => (t.mem.readMany 0x400 2, t.solver.width)) = some ([0x02, 0x0D], 0) := by decide +kernel

/-- The system of program 3 (§9.3). -/
theorem test_ssol_three : solve 0x11D 3
      [⟨[1, 1, 1], [0xBB, 0x99]⟩, ⟨[1, 2, 3], [0xF1, 0xF4]⟩, ⟨[0, 0, 1], [0xAA, 0xBB]⟩] =
    [[0x10, 0x20], [0x01, 0x02], [0xAA, 0xBB]] := by decide +kernel

/-! ### Registers, irq and overrun (95_test_vectors.md §7) -/

theorem test_status_w1c : ofNext (step { withTurns [.busWrite 0x14 4 0x4] with done := true, err := true })
    State.statusWord = some 0x02 := by decide
theorem test_ctrl_keeps_two_bits : ofNext (step (withTurns [.busWrite 0x10 4 0xFFFFFFFF])) State.ctrlWord = some 3 := by
  decide
theorem test_overrun_drops : ofNext (step (inFlight 0x08010000 [.busWrite 0x24 4 0x300] State.reset))
    (fun t => (t.dst, t.statusWord)) = some (0, 0x09) := by decide
theorem test_read_maxsym : ofNext (step (withTurns [.busRead 0x0C 4])) State.readData = some 0x10 := by decide

/-! ### Witnesses: for each statement with hypotheses, what meets them -/

theorem not_inSpan_empty (p : BitVec 9) (w : Nat) (c : List Byte) (h : c ≠ List.replicate w 0x00) :
    ¬ InSpan p w [] c := by
  rintro ⟨ks, hl, hc⟩
  cases ks with
  | nil => exact h hc.symm
  | cons k ks => simp at hl

theorem independent_one (p : BitVec 9) (w : Nat) (c : List Byte) (h : c ≠ List.replicate w 0x00) :
    Independent p w [c] := by
  intro k hk
  have hk0 : k = 0 := by simpa using hk
  subst hk0
  exact not_inSpan_empty p w c h

theorem independent_nil (p : BitVec 9) (w : Nat) : Independent p w [] := fun k hk => absurd hk (Nat.not_lt_zero k)

/-- The solver with the one equation x0 = 0x11. -/
def fullSolver : Solver := { width := 1, rows := [⟨[1], [0x11]⟩], slen := 1, dep := false }

/-- A state with the full solver, its operands in memory. -/
def fullState : State :=
  { withOperands 0x400 0x300 0x200 1 (cells 0x200 [7] ++ cells 0x300 [9]) with solver := fullSolver }

/-- A state with nothing in the solver but its width. -/
def openState : State := { fullState with solver := { width := 1, rows := [], slen := 0, dep := false } }

theorem fullState_inv : fullState.Inv where
  cfgLegal := by decide
  memSorted := by decide
  memInside := by decide
  widthBound := by decide
  coefLength := by decide
  payloadLength := by decide
  slenBound := by decide
  slenClear := by decide
  busyNotDone := by decide
  latched := fun f h => by cases h
  progress := fun f h => by cases h
  heldInReset := by decide

theorem openState_inv : openState.Inv where
  cfgLegal := by decide
  memSorted := by decide
  memInside := by decide
  widthBound := by decide
  coefLength := by decide
  payloadLength := by decide
  slenBound := by decide
  slenClear := by decide
  busyNotDone := by decide
  latched := fun f h => by cases h
  progress := fun f h => by cases h
  heldInReset := by decide

theorem one_mul_reference (y : Byte) : gfAdd (gfMul 0x11D 1 y) 0 = y := by
  revert y
  decide +kernel

theorem fullState_solverInv : fullState.SolverInv where
  rankBound := by decide
  independent := independent_one _ _ _ (by decide)
  payloads := by decide
  invertible := fun _ b hb => by
    obtain ⟨y, rfl⟩ := List.length_eq_one_iff.1 hb
    refine ⟨[y], ⟨rfl, ?_⟩, ?_⟩
    · show [gfAdd (gfMul 0x11D 1 y) 0] = [y]
      rw [one_mul_reference]
    · rintro x ⟨hx, he⟩
      obtain ⟨z, rfl⟩ := List.length_eq_one_iff.1 hx
      have : [gfAdd (gfMul 0x11D 1 z) 0] = [y] := he
      rw [one_mul_reference] at this
      exact this

theorem justIssued_idle (s : State) (h : s.inflight = none) : s.JustIssued := fun f hf => by rw [h] at hf; cases hf

theorem justIssued_issue (s : State) (w : Word) : (s.issue w).JustIssued := fun f hf => by cases hf; rfl

theorem test_witness_MustBeZeroFieldsChecked :
    opcField 0x01000001 = opcField (tableMatch (.add 0 0)) ∧
      (0x01000001 : Word) &&& tableMask (.add 0 0) ≠ tableMatch (.add 0 0) := by decide

theorem test_witness_OpcodeMapSelects :
    decode 0x11000003 = .ok (.swid 3) ∧ (0x11000003 : Word) &&& tableMask (.swid 0) = tableMatch (.swid 0) := by decide

theorem test_witness_DecodeEncodeRoundTrip : Instr.wf (.swid 65535) = true ∧ decode 0x1100FFFF = .ok (.swid 65535) := by
  decide

/-- One word at each end of each range of reserved opcodes; and any word can be in flight. -/
theorem test_witness_ReservedOpcodesIllegal :
    (([0x00000000, 0x05000000, 0x07FFFFFF, 0x09000000, 0x0F000000, 0x14000000, 0xFF000000] : List Word).all fun w =>
      (opcField w).toNat == 0x00 || (0x05 ≤ (opcField w).toNat && (opcField w).toNat ≤ 0x07) ||
        (0x09 ≤ (opcField w).toNat && (opcField w).toNat ≤ 0x0F) || 0x14 ≤ (opcField w).toNat) = true ∧
    ∀ w : Word, (inFlight w [.engine] State.reset).inflight = some (State.reset.freshFlight w) ∧
      (State.reset.freshFlight w).word = w ∧ (inFlight w [.engine] State.reset).turns = [.engine] :=
  ⟨by decide, fun _ => ⟨rfl, rfl, rfl⟩⟩

theorem test_witness_IllegalWordCompletes :
    (withTurns [.busWrite 0x1C 4 0x00000000, .engine]).rst = false ∧
      (withTurns [.busWrite 0x1C 4 0x00000000, .engine]).inflight = none ∧
      decode 0x00000000 = .error .reservedOpcode ∧
      (withTurns [.busWrite 0x1C 4 0x00000000, .engine]).turns =
        .busWrite ((withTurns [.busWrite 0x1C 4 0x00000000, .engine]).cfg.gfuBase + 0x1C) 4 0x00000000 ::
          .engine :: [] := by decide

theorem test_witness_AssembleDisassemble : Instr.wf (.swid 0) = true ∧ Instr.wf (.mul 0xFF 0x00) = true := by decide

/-- A command in flight with each of the turns that complete it, and a placed word. -/
theorem test_witness_StepRunsDecodedCommand :
    (∀ ts ∈ ([[.command], [.engine], []] : List (List Turn)),
      (inFlight 0x10000000 ts State.reset).inflight = some (State.reset.freshFlight 0x10000000) ∧
      decode 0x10000000 = .ok .sclr ∧ (inFlight 0x10000000 ts State.reset).turns = ts ∧
      accessTotal .sclr (inFlight 0x10000000 ts State.reset) (State.reset.freshFlight 0x10000000) ≤ 0) ∧
    decode (tableWord 32 0x10000000) = .ok .sclr := by decide

/-- MAC before its write, SINS, and SSOL, each in flight with accesses left. -/
theorem test_witness_UnitAccessIsOneByte :
    accessTotal (.mac 1) (inFlight 0x08010000 [.engine] fullState) (fullState.freshFlight 0x08010000) = 3 ∧
    accessTotal .sins (inFlight 0x12000000 [.engine] fullState) (fullState.freshFlight 0x12000000) = 2 ∧
    accessTotal .ssol (inFlight 0x13000000 [.engine] fullState) (fullState.freshFlight 0x13000000) = 1 ∧
    (inFlight 0x08010000 [.engine] fullState).inflight = some (fullState.freshFlight 0x08010000) ∧
    (inFlight 0x12000000 [.engine] fullState).inflight = some (fullState.freshFlight 0x12000000) ∧
    (inFlight 0x13000000 [.engine] fullState).inflight = some (fullState.freshFlight 0x13000000) ∧
    decode 0x08010000 = .ok (.mac 1) ∧ decode 0x12000000 = .ok .sins ∧ decode 0x13000000 = .ok .ssol := by decide

theorem test_witness_FineStepsAgreeWithCommand :
    (inFlight 0x08010000 [.engine, .engine, .engine, .engine, .command] fullState).inflight =
        some (fullState.freshFlight 0x08010000) ∧
    decode (fullState.freshFlight 0x08010000).word = .ok (.mac 1) ∧
    (inFlight 0x08010000 [.engine, .engine, .engine, .engine, .command] fullState).turns =
      List.replicate (accessTotal (.mac 1) (inFlight 0x08010000 [] fullState) (fullState.freshFlight 0x08010000) - 0 + 1)
        Turn.engine ++ [.command] := by decide

theorem test_witness_CommandInFlightCompletes :
    (inFlight 0x08010000 [] fullState).inflight = some (fullState.freshFlight 0x08010000) ∧
    (inFlight 0x08010000 [] fullState).turns = [] ∧ decode 0x08010000 = .ok (.mac 1) ∧
    (inFlight 0x00000000 [] fullState).inflight = some (fullState.freshFlight 0x00000000) ∧
    (inFlight 0x00000000 [] fullState).turns = [] ∧ decode 0x00000000 = .error .reservedOpcode := by decide

theorem test_witness_LegalPolynomials : (0x11D : BitVec 9).getLsbD 8 = true ∧ (0x11D : BitVec 9) ∈ legalPolys := by
  decide

theorem test_witness_field_operands : (0x11D : BitVec 9) ∈ legalPolys ∧ (0x02 : Byte) ≠ 0 := by decide

theorem test_witness_ProductsWithoutReduction :
    (0x03 : Byte).toNat < 2 ^ (1 + 1) ∧ (0x7F : Byte).toNat < 2 ^ (6 + 1) ∧ 1 + 6 < 8 := by decide

/-- Boundary values of MAC's clauses: the buffer that ends at MEM_SIZE, one byte past it, and a one-byte overlap. -/
theorem test_witness_MacAccumulates :
    (withOperands 0xFFC 0x200 0 4 []).JustIssued ∧ ((withOperands 0xFFC 0x200 0 4 []).issue 0x08010000).JustIssued ∧
    (0xFFC + 4 ≤ State.reset.cfg.memSize ∧ 0x200 + 4 ≤ State.reset.cfg.memSize ∧
      ¬ (0 < 4 ∧ 0xFFC ≠ 0x200 ∧ 0xFFC < 0x200 + 4 ∧ 0x200 < 0xFFC + 4)) ∧
    (withOperands 0xFFD 0x200 0 4 []).JustIssued ∧ State.reset.cfg.memSize < 0xFFD + 4 ∧
    (withOperands 0x100 0x101 0 2 []).JustIssued ∧
    (0 < 2 ∧ 0x100 ≠ 0x101 ∧ 0x100 < 0x101 + 2 ∧ 0x101 < 0x100 + 2) ∧
    (withOperands 0xFFC 0x200 0 4 []).dst.toNat = 0xFFC ∧ (withOperands 0xFFC 0x200 0 4 []).src.toNat = 0x200 ∧
    (withOperands 0xFFC 0x200 0 4 []).len.toNat = 4 :=
  ⟨justIssued_idle _ rfl, justIssued_issue _ _, by decide, justIssued_idle _ rfl, by decide, justIssued_idle _ rfl,
    by decide, by decide, by decide, by decide⟩

theorem test_witness_AliasedMacScales :
    (withOperands 0x100 0x100 0 3 []).JustIssued ∧ (withOperands 0x100 0x100 0 3 []).dst.toNat = 0x100 ∧
    (withOperands 0x100 0x100 0 3 []).src.toNat = 0x100 ∧ (withOperands 0x100 0x100 0 3 []).len.toNat = 3 ∧
    0x100 + 3 ≤ (withOperands 0x100 0x100 0 3 []).cfg.memSize :=
  ⟨justIssued_idle _ rfl, by decide, by decide, by decide, by decide⟩

/-- SWID at MAX_COLS, one above it, one below W, and at W. -/
theorem test_witness_SwidGrowsWidth :
    (fullState.solver.width ≤ 8 ∧ 8 ≤ fullState.cfg.maxCols) ∧ (fullState.solver.width ≤ 9 ∧ fullState.cfg.maxCols < 9) ∧
    0 < fullState.solver.width ∧ fullState.solver.width = 1 ∧ fullState.solver.rows.length ≤ fullState.solver.width ∧
    Independent 0x11D 1 [[1]] :=
  ⟨by decide, by decide, by decide, by decide, by decide, independent_one _ _ _ (by decide)⟩

/-- Operands both clauses of SINS meet: dependent on the full solver, and independent on the open one. -/
theorem test_witness_SinsCompletes :
    fullState.JustIssued ∧ fullState.len.toNat = 1 ∧ 1 ≤ fullState.cfg.maxSym ∧
    (0 < fullState.solver.rows.length → 1 = fullState.solver.slen) ∧
    fullState.coef.toNat + fullState.solver.width ≤ fullState.cfg.memSize ∧
    fullState.src.toNat + 1 ≤ fullState.cfg.memSize ∧
    inSpan fullState.cfg.fieldPoly (fullState.solver.rows.map Row.coef)
      (fullState.mem.readMany fullState.coef.toNat fullState.solver.width) = true ∧
    openState.JustIssued ∧
    inSpan openState.cfg.fieldPoly (openState.solver.rows.map Row.coef)
      (openState.mem.readMany openState.coef.toNat openState.solver.width) = false :=
  ⟨justIssued_idle _ rfl, by decide, by decide, by decide, by decide, by decide, by decide +kernel,
    justIssued_idle _ rfl, by decide +kernel⟩

/-- Each clause of R98: LEN above MAX_SYM, LEN not SLEN, a buffer out of range, dependent, independent. -/
theorem test_witness_SinsInsertsIndependentRows :
    openState.Inv ∧ openState.JustIssued ∧ openState.len.toNat = 1 ∧ 1 ≤ openState.cfg.maxSym ∧
    openState.coef.toNat + openState.solver.width ≤ openState.cfg.memSize ∧
    openState.src.toNat + 1 ≤ openState.cfg.memSize ∧
    ¬ InSpan openState.cfg.fieldPoly openState.solver.width (openState.solver.rows.map Row.coef)
      (openState.mem.readMany openState.coef.toNat openState.solver.width) ∧
    fullState.Inv ∧ fullState.JustIssued ∧
    InSpan fullState.cfg.fieldPoly fullState.solver.width (fullState.solver.rows.map Row.coef)
      (fullState.mem.readMany fullState.coef.toNat fullState.solver.width) ∧
    ({ fullState with len := 17 } : State).Inv ∧ fullState.cfg.maxSym < 17 ∧
    ({ fullState with len := 2 } : State).Inv ∧ 2 ≠ fullState.solver.slen ∧
    ({ fullState with coef := 0x1000 } : State).Inv ∧ fullState.cfg.memSize < 0x1000 + fullState.solver.width :=
  ⟨openState_inv, justIssued_idle _ rfl, by decide, by decide, by decide, by decide,
    not_inSpan_empty _ _ _ (by decide), fullState_inv, justIssued_idle _ rfl, ⟨[7], by decide, by decide⟩,
    { fullState_inv with latched := fun _ h => (nomatch h), progress := fun _ h => (nomatch h), heldInReset := by decide },
    by decide,
    { fullState_inv with latched := fun _ h => (nomatch h), progress := fun _ h => (nomatch h), heldInReset := by decide },
    by decide,
    { fullState_inv with latched := fun _ h => (nomatch h), progress := fun _ h => (nomatch h), heldInReset := by decide },
    by decide⟩

theorem test_witness_InSpanTestIsExact :
    (0x11D : BitVec 9) ∈ legalPolys ∧ (∀ v ∈ [[(1 : Byte), 1, 1]], v.length = 3) ∧ [(2 : Byte), 2, 2].length = 3 := by
  decide

theorem test_witness_SsolCompletes :
    fullState.JustIssued ∧ fullState.dst.toNat = 0x400 ∧ fullState.solver.width = 1 ∧ fullState.solver.slen = 1 ∧
    0 < 1 ∧ fullState.solver.rows.length = 1 ∧ 0x400 + 1 * 1 ≤ fullState.cfg.memSize :=
  ⟨justIssued_idle _ rfl, by decide, by decide, by decide, by decide, by decide, by decide⟩

theorem test_witness_SolutionIsUnique :
    (0x11D : BitVec 9) ∈ legalPolys ∧ (∀ r ∈ fullSolver.rows, r.coef.length = 1) ∧
    (∀ r ∈ fullSolver.rows, r.payload.length = 1) ∧ fullSolver.rows.length = 1 ∧
    Independent 0x11D 1 (fullSolver.rows.map Row.coef) :=
  ⟨by decide, by decide, by decide, by decide, independent_one _ _ _ (by decide)⟩

/-- R99's clauses: full and in range, full with DST at the last byte for two bytes, and not full. -/
theorem test_witness_SsolRecoversSymbols :
    fullState.Inv ∧ fullState.SolverInv ∧ fullState.JustIssued ∧ fullState.solver.rows.length = fullState.solver.width ∧
    0x400 + fullState.solver.width * fullState.solver.slen ≤ fullState.cfg.memSize ∧
    ({ fullState with dst := 0x1000 } : State).Inv ∧ ({ fullState with dst := 0x1000 } : State).SolverInv ∧
    fullState.cfg.memSize < 0x1000 + fullState.solver.width * fullState.solver.slen ∧
    openState.Inv ∧ openState.SolverInv ∧ openState.solver.rows.length ≠ openState.solver.width :=
  ⟨fullState_inv, fullState_solverInv, justIssued_idle _ rfl, by decide, by decide,
    { fullState_inv with latched := fun _ h => (nomatch h), progress := fun _ h => (nomatch h), heldInReset := by decide },
    { fullState_solverInv with }, by decide, openState_inv,
    { rankBound := by decide, independent := independent_nil _ _, payloads := by decide,
      invertible := fun h => absurd h (by decide) },
    by decide⟩

theorem test_witness_FullSolverRejectsCandidates :
    fullState.Inv ∧ fullState.SolverInv ∧ fullState.JustIssued ∧ fullState.solver.full = true ∧
    fullState.len.toNat = fullState.solver.slen ∧
    fullState.coef.toNat + fullState.solver.width ≤ fullState.cfg.memSize ∧
    fullState.src.toNat + fullState.len.toNat ≤ fullState.cfg.memSize :=
  ⟨fullState_inv, fullState_solverInv, justIssued_idle _ rfl, by decide, by decide, by decide, by decide⟩

theorem test_witness_DuplicateInsertIsDependent :
    openState.Inv ∧ openState.JustIssued ∧ ofNext (exec .sins openState) State.errcode = some .noError :=
  ⟨openState_inv, justIssued_idle _ rfl, by decide +kernel⟩

/-- An error for each command that has one, and none for each command. -/
theorem test_witness_completions :
    errorOf (.div 1 0) State.reset (State.reset.flight (.div 1 0)) = some .divZero ∧
    errorOf (.inv 0) State.reset (State.reset.flight (.inv 0)) = some .divZero ∧
    errorOf (.mac 1) { State.reset with dst := 0x1001 } ({ State.reset with dst := 0x1001 }.flight (.mac 1)) =
      some .range ∧
    errorOf (.swid 9) State.reset (State.reset.flight (.swid 9)) = some .widthOverflow ∧
    errorOf .sins { fullState with len := 17 } (({ fullState with len := 17 } : State).flight .sins) = some .lenOverflow ∧
    errorOf .ssol State.reset (State.reset.flight .ssol) = some .notFull ∧
    ∀ i ∈ ([.add 1 2, .mul 1 2, .div 1 2, .inv 1, .mac 1, .sclr, .swid 8, .sins, .ssol] : List Instr),
      errorOf i fullState (fullState.flight i) = none := by decide

/-- Every command has a next state from the full state, so the frames are about something. -/
theorem test_witness_frames :
    ∀ i ∈ ([.add 1 2, .mul 1 2, .div 1 2, .inv 1, .mac 1, .sclr, .swid 8, .sins, .ssol] : List Instr),
      ofNext (exec i fullState) State.errcode = some .noError := by decide +kernel

/-- An illegal word in flight (R106, R108), and a state held in reset (R119). -/
theorem test_witness_illegal_in_flight :
    (inFlight 0x00000000 [.engine] State.reset).inflight = some (State.reset.freshFlight 0x00000000) ∧
    decode (State.reset.freshFlight 0x00000000).word = .error .reservedOpcode := by decide

theorem test_witness_held_in_reset :
    ({ State.reset with rst := true } : State).rst = true ∧ ({ State.reset with rst := true } : State).AtReset :=
  ⟨rfl, rfl, rfl, rfl, rfl, (fun r h1 h2 h3 h4 => by cases r <;> first | rfl | contradiction), rfl, rfl, rfl⟩

/-- Reads of CMD and STATUS, and writes of CTRL and STATUS, also while a command is in flight. -/
theorem test_witness_status_and_ctrl_accesses :
    ∀ t ∈ ([.busRead 0x1C 4, .busRead 0x14 4, .busWrite 0x10 4 0xFFFFFFFF, .busWrite 0x14 4 0x0000000E] : List Turn),
      (inFlight 0x08010000 [t] State.reset).turns = [t] ∧ (inFlight 0x08010000 [t] State.reset).rst = false ∧
      State.reset.cfg.gfuBase = 0 ∧ (0xFFFFFFF1 : Word) &&& 0x0000000E = 0#32 := by decide

theorem test_witness_CmdWriteIssues :
    (withTurns [.busWrite 0x1C 4 0x10000000]).rst = false ∧ (withTurns [.busWrite 0x1C 4 0x10000000]).inflight = none ∧
    (inFlight 0x08010000 [.busWrite 0x1C 4 0x10000000] State.reset).inflight =
      some (State.reset.freshFlight 0x08010000) ∧
    (inFlight 0x08010000 [.busWrite 0x1C 4 0x10000000] State.reset).turns =
      [.busWrite (State.reset.cfg.gfuBase + 0x1C) 4 0x10000000] := by decide

/-- A write to each operand register, idle and busy; CMD busy. -/
theorem test_witness_operand_writes :
    (∀ r ∈ [Reg.dst, .src, .coef, .len],
      (withTurns [.busWrite r.offset 4 0xFFFFFFFF]).turns =
        [.busWrite (State.reset.cfg.gfuBase + r.offset) 4 0xFFFFFFFF]) ∧
    (∀ r ∈ [Reg.cmd, .dst, .src, .coef, .len],
      (inFlight 0x08010000 [.busWrite r.offset 4 1] State.reset).turns =
        [.busWrite (State.reset.cfg.gfuBase + r.offset) 4 1] ∧
      (inFlight 0x08010000 [.busWrite r.offset 4 1] State.reset).rst = false) := by decide

theorem test_witness_ReadOnlyRegisters :
    ∀ r ∈ allRegs,
      (withTurns [.busRead r.offset 4]).turns = [.busRead (State.reset.cfg.gfuBase + r.offset) 4] ∧
      (withTurns [.busWrite r.offset 4 7]).turns = [.busWrite (State.reset.cfg.gfuBase + r.offset) 4 7] ∧
      (withTurns [.busRead r.offset 4]).rst = false := by decide

theorem test_witness_ReservedBitsAndOffsets : 0x40 ≤ 0xFC ∧ 0xFC ≤ 0xFC ∧ 0xFC % 4 = 0 ∧ 0x40 % 4 = 0 := by decide

/-- Each clause of R51 and R122 at a boundary: the last word, a byte access, the last byte, `rst` asserted. -/
theorem test_witness_RefusedRegisterAccesses :
    (withTurns [.busRead 0xFC 4]).turns = [.busRead (State.reset.cfg.gfuBase + 0xFC) 4] ∧
    (withTurns [.busWrite 0x1C 1 7]).turns = [.busWrite (State.reset.cfg.gfuBase + 0x1C) 1 7] ∧
    (withTurns [.busRead 0xFF 4]).turns = [.busRead (State.reset.cfg.gfuBase + 0xFF) 4] ∧ 0xFF % 4 ≠ 0 ∧
    ({ withTurns [.busRead 0x00 4] with rst := true } : State).rst = true := by decide

theorem test_witness_ConfigurationRegisters :
    State.reset.cfg.Legal ∧
    ({ fieldPoly := 0x1F5, maxCols := 65535, maxSym := 2 ^ 32 - 1, memSize := 2 ^ 32, gfuBase := 256 } : Config).Legal := by
  decide

theorem test_witness_SolverViewRegisters :
    fullState.Inv ∧ fullState.solver.rows.length ≤ fullState.solver.width ∧ 0 < fullState.solver.rows.length ∧
    openState.Inv ∧ openState.solver.rows.length = 0 := ⟨fullState_inv, by decide, by decide, openState_inv, by decide⟩

/-- A step of a command in flight that is not its completion. -/
theorem test_witness_ResultsChangeOnlyAtCompletion :
    ofNext (step (inFlight 0x08010000 [.engine] fullState)) (fun t => t.inflight.isSome) = some true ∧
    (∀ level rest, (inFlight 0x08010000 [.engine] fullState).turns ≠ .rst level :: rest) :=
  ⟨by decide +kernel, fun level rest h => by cases h⟩

/-- ERR falls by a STATUS write and by reset, and rises by a completion in error. -/
theorem test_witness_ErrIsSticky :
    ofNext (step { withTurns [.busWrite 0x14 4 0x4] with err := true }) State.err = some false ∧
    ofNext (step { withTurns [.rst true] with err := true }) State.err = some false ∧
    ofNext (step (inFlight 0x13000000 [.engine] State.reset)) (fun t => (t.err, t.inflight.isSome)) =
      some (true, false) := by decide

/-- Each clause of R102: a row more, none, and W grown. -/
theorem test_witness_RankAndWidthMonotone :
    ofNext (step (inFlight 0x12000000 [.command] openState)) (fun t => t.solver.rows.length) = some 1 ∧
    ofNext (step (inFlight 0x10000000 [.command] fullState)) (fun t => (t.solver.rows.length, t.solver.width)) =
      some (0, 0) ∧
    ofNext (step (inFlight 0x11000008 [.command] fullState)) (fun t => t.solver.width) = some 8 := by decide +kernel

theorem test_witness_reset_turns :
    (inFlight 0x08010000 [.rst true] fullState).turns = [.rst true] ∧
    (inFlight 0x08010000 [.rst true] fullState).writtenFootprint = (0x400, 1) ∧
    ({ withTurns [.rst false] with rst := true } : State).turns = [.rst false] ∧
    ({ withTurns [.rst false] with rst := true } : State).rst = true := by decide

theorem test_witness_FootprintOfCommands :
    errorOf .ssol State.reset (State.reset.freshFlight 0) = some .notFull ∧
    ∀ i ∈ ([.add 1 2, .mul 1 2, .div 1 2, .inv 1, .mac 1, .sclr, .swid 8, .sins, .ssol] : List Instr),
      errorOf i fullState (fullState.freshFlight (encode i)) = none := by decide

/-- MAC with DST 0x400, SRC 0x300, LEN 1 in flight: its two bytes race, the ones beside them do not. -/
theorem test_witness_HostRaceFaults :
    inBuffer 0x400 (writtenBuffer (.mac 1) fullState (fullState.freshFlight 0x08010000)) = true ∧
    inBuffer 0x401 (writtenBuffer (.mac 1) fullState (fullState.freshFlight 0x08010000)) = false ∧
    (∃ b ∈ readBuffers (.mac 1) fullState (fullState.freshFlight 0x08010000), inBuffer 0x300 b = true) ∧
    (∀ b ∈ readBuffers (.mac 1) fullState (fullState.freshFlight 0x08010000), inBuffer 0x301 b = false) ∧
    0x401 < fullState.cfg.memSize := by decide

/-- Host accesses that do not race with a MAC in flight: a write outside its footprint, a read of a byte it only reads. -/
theorem test_witness_HostAccessesCommute :
    (inFlight 0x08010000 [] fullState).Inv ∧ decode 0x08010000 = .ok (.mac 1) ∧
    ofNext (hostWrite 0x401 5 (inFlight 0x08010000 [] fullState)) (fun t => t.mem.read 0x401) = some 5 ∧
    ofNext (hostRead 0x300 (inFlight 0x08010000 [] fullState)) State.readData = some 9 :=
  ⟨{ fullState_inv with
      busyNotDone := by decide
      latched := fun f h => by cases h; exact ⟨rfl, rfl, rfl, rfl⟩
      progress := fun f h => by
        cases h
        show 0 ≤ accessTotal (.mac 1) _ _ ∧ _
        exact ⟨Nat.zero_le _, fun h => nomatch h⟩
      heldInReset := fun h => by cases h },
    by decide, by decide, by decide⟩

theorem test_host_race : (match step (inFlight 0x08010000 [.memWrite 0x300 0] fullState) with
    | .fault r => decide (r = .hostRace 0x300) | .next _ => false | .refused _ => false) = true := by decide

theorem test_witness_PseudoInstructionEffects :
    fullState.inflight = none ∧ fullState.rst = false ∧
    ∀ ps ∈ [Pseudo.bzero, .bscale 2, .bdiv 2, .bcopy, .sub 1 2, .bsubw 3],
      ({ fullState with turns := ps.turns fullState } : State).turns = ps.turns { fullState with turns := ps.turns fullState } ∧
      fullState.dst.toNat + fullState.len.toNat ≤ fullState.cfg.memSize ∧
      fullState.src.toNat + fullState.len.toNat ≤ fullState.dst.toNat := by decide +kernel

theorem test_witness_StepKeepsInv :
    (inFlight 0x12000000 [.engine] openState).Inv ∧
    ofNext (step (inFlight 0x12000000 [.engine] openState)) (fun t => t.inflight.isSome) = some true :=
  ⟨{ openState_inv with
      busyNotDone := by decide
      latched := fun f h => by cases h; exact ⟨rfl, rfl, rfl, rfl⟩
      progress := fun f h => by
        cases h
        show 0 ≤ accessTotal .sins _ _ ∧ _
        exact ⟨Nat.zero_le _, fun _ => rfl⟩
      heldInReset := fun h => by cases h },
    by decide +kernel⟩

theorem test_witness_StepKeepsSolverInv :
    fullState.Inv ∧ fullState.SolverInv ∧ ofNext (step fullState) State.errcode = some .noError :=
  ⟨fullState_inv, fullState_solverInv, by decide⟩

end Sys2Proof.Tests
end

section
/-! PROOFS. R7: which values of FIELD_POLY make x an element of multiplicative order 255. -/

namespace Sys2Proof.Machine

open Function

/-- R81 with the second factor x: shift left, and where an x^8 term came out subtract FIELD_POLY. Bit 1 of 0x02
is its only 1 bit, so the loop computes to 0 plus the factor after one shift. -/
theorem gfMul_two (p : BitVec 9) (t : Byte) :
    gfMul p t 0x02 = if t.msb then (t <<< 1) ^^^ p.setWidth 8 else t <<< 1 :=
  BitVec.zero_xor

/-- `gfMul_two` in numbers, `low` being FIELD_POLY[7:0]; without a branch, which the kernel evaluates fast. -/
def timesX (low t : Nat) : Nat := 2 * t % 256 ^^^ t / 128 * low

theorem toNat_gfMul_two (p : BitVec 9) (t : Byte) :
    (gfMul p t 0x02).toNat = timesX (p.toNat % 256) t.toNat := by
  have ht : t.toNat < 256 := t.isLt
  have hshift : (t <<< 1).toNat = 2 * t.toNat % 256 := by
    rw [BitVec.toNat_shiftLeft, Nat.shiftLeft_eq, Nat.mul_comm]
  rw [gfMul_two, timesX, BitVec.msb_eq_decide]
  by_cases hcarry : 128 ≤ t.toNat
  · have hq : t.toNat / 128 = 1 := by omega
    simp [hcarry, hq, hshift]
  · have hq : t.toNat / 128 = 0 := by omega
    simp [hcarry, hq, hshift]

theorem toNat_iterate_gfMul_two (p : BitVec 9) (n : Nat) :
    ((fun t => gfMul p t 0x02)^[n] 0x01).toNat = (timesX (p.toNat % 256))^[n] 1 :=
  Semiconj.iterate_right (f := BitVec.toNat) (toNat_gfMul_two p) n 0x01

theorem iterate_gfMul_two_eq_one_iff (p : BitVec 9) (n : Nat) :
    (fun t => gfMul p t 0x02)^[n] 0x01 = 0x01 ↔ (timesX (p.toNat % 256))^[n] 1 = 1 := by
  rw [← toNat_iterate_gfMul_two, ← BitVec.toNat_inj]
  rfl

/-- A point that returns after 255 steps returns no earlier if it does not after 255/3, 255/5 and 255/17: the first
return divides every other, and each proper divisor of 255 divides one of the three. -/
theorem first_return_at_255_iff {α : Type} (f : α → α) (x : α) :
    (f^[255] x = x ∧ ∀ k, 0 < k → k < 255 → f^[k] x ≠ x) ↔
      f^[255] x = x ∧ ∀ n ∈ [85, 51, 15], f^[n] x ≠ x := by
  have returns_iff (n : Nat) : f^[n] x = x ↔ minimalPeriod f x ∣ n := isPeriodicPt_iff_minimalPeriod_dvd
  simp only [ne_eq, returns_iff]
  refine and_congr_right fun h255 => ⟨fun h n hn => ?_, fun h k hpos hlt hk => ?_⟩
  · have hrange : ∀ n ∈ [85, 51, 15], 0 < n ∧ n < 255 := by decide
    exact h n (hrange n hn).1 (hrange n hn).2
  · have proper : ∀ m < 255, m ∣ 255 → m ∣ 85 ∨ m ∣ 51 ∨ m ∣ 15 := by decide +kernel
    have hm : minimalPeriod f x < 255 := (Nat.le_of_dvd hpos hk).trans_lt hlt
    simpa [h] using proper _ hm h255

/-- Modulo a polynomial without constant term a multiple of x has none either, so no power of x is 1 again. -/
theorem iterate_timesX_ne_one_of_even (low n : Nat) (h : low % 2 = 0) : (timesX low)^[n + 1] 1 ≠ 1 := by
  rw [iterate_succ_apply']
  intro hone
  have hparity : timesX low ((timesX low)^[n] 1) % 2 = 0 := by
    rw [timesX, Nat.xor_mod_two_eq, Nat.add_mod, Nat.mul_mod _ low, h]
    omega
  omega

/-- R7's own derivation: the order of x, evaluated for every odd polynomial of degree 8. -/
theorem odd_mem_legalPolys_iff : ∀ i < 128, 256 + (2 * i + 1) ∈ legalPolys.map BitVec.toNat ↔
    (timesX (2 * i + 1))^[255] 1 = 1 ∧ ∀ n ∈ [85, 51, 15], (timesX (2 * i + 1))^[n] 1 ≠ 1 := by
  decide +kernel

theorem mem_legalPolys_iff (low : Nat) (hlow : low < 256) : 256 + low ∈ legalPolys.map BitVec.toNat ↔
    (timesX low)^[255] 1 = 1 ∧ ∀ n ∈ [85, 51, 15], (timesX low)^[n] 1 ≠ 1 := by
  rcases Nat.mod_two_eq_zero_or_one low with heven | hodd
  · have hlegal : ∀ q ∈ legalPolys.map BitVec.toNat, q % 2 = 1 := by decide
    refine iff_of_false (fun hmem => ?_) fun h => iterate_timesX_ne_one_of_even low 254 heven h.1
    have := hlegal _ hmem
    omega
  · obtain ⟨i, rfl⟩ : ∃ i, low = 2 * i + 1 := ⟨low / 2, by omega⟩
    exact odd_mem_legalPolys_iff i (by omega)

/-- Settles O12: iterating `gf_mul` by x is iterating `timesX`, whose first return to 1 is found from its values after
255, 85, 51 and 15 steps. -/
theorem legalPolynomialsArePrimitive : Obligations.LegalPolynomialsArePrimitive := by
  refine ⟨by decide, rfl, fun p hp => ?_⟩
  have htop : 256 + p.toNat % 256 = p.toNat := by
    have h256 : 256 ≤ p.toNat := by simpa [BitVec.msb_eq_decide] using (show p.msb = true from hp)
    have := p.isLt
    omega
  have hlegal := mem_legalPolys_iff (p.toNat % 256) (Nat.mod_lt _ (by decide))
  rw [htop, List.mem_map_of_injective BitVec.toNat_injective] at hlegal
  simpa only [first_return_at_255_iff, ne_eq, iterate_gfMul_two_eq_one_iff] using hlegal

end Sys2Proof.Machine
end

section
/-! PROOFS. Inversion lemmas of a step: what the engine, a command and the step itself can do, said once. -/

namespace Sys2Proof.Machine

/-- The accesses command `i` still has to make, all made: the progress it ends with, and memory (R56). -/
def remainingAccesses (i : Instr) (s : State) : InFlight × Memory :=
  runAccesses (accessOnce i s) (accessTotal i s (s.flight i)) (s.flight i) s.mem

/-- What command `i` does beside its completion, when no check of it applies (the effects of R85 to R99). -/
def commandEffects (i : Instr) (s : State) : State :=
  match i with
  | .add a b => s.setResult (gfAdd a b)
  | .mul a b => s.setResult (gfMul s.cfg.fieldPoly a b)
  | .div a b => s.setResult (gfDiv s.cfg.fieldPoly a b)
  | .inv a => s.setResult (gfInv s.cfg.fieldPoly a)
  | .mac _ => s.setMem (remainingAccesses i s).2
  | .sclr => s.setSolver Solver.clear
  | .swid n => s.setSolver (s.solver.grow n)
  | .sins =>
    s.setSolver (s.solver.insertRow s.cfg.fieldPoly (s.flight .sins).lenNat
      (candidate s.solver.width (remainingAccesses i s).1.fetched))
  | .ssol => (s.setMem (remainingAccesses i s).2).setSolver Solver.clear

theorem accessTotal_mac (c : Byte) (s : State) (f : InFlight) (h : errorOf (.mac c) s f = none) :
    accessTotal (.mac c) s f = 3 * f.lenNat := by simp [accessTotal, h]

theorem accessTotal_sins (s : State) (f : InFlight) (h : errorOf .sins s f = none) :
    accessTotal .sins s f = s.solver.width + f.lenNat := by simp [accessTotal, h]

theorem accessTotal_ssol (s : State) (f : InFlight) (h : errorOf .ssol s f = none) :
    accessTotal .ssol s f = s.solver.width * s.solver.slen := by simp [accessTotal, h]

/-- Every command is its checks, and where none applies its effects (R106 to R108). -/
theorem exec_eq_conclude (i : Instr) (s : State) :
    exec i s = s.conclude (errorOf i s (s.flight i)) (commandEffects i s) := by
  have hends : ∃ t, exec i s = s.conclude (errorOf i s (s.flight i)) t ∧
      (errorOf i s (s.flight i) = none → t = commandEffects i s) := by
    cases i with
    | add a b => exact ⟨_, rfl, fun _ => rfl⟩
    | mul a b => exact ⟨_, rfl, fun _ => rfl⟩
    | div a b => exact ⟨_, rfl, fun _ => rfl⟩
    | inv a => exact ⟨_, rfl, fun _ => rfl⟩
    | mac c => exact ⟨_, rfl, fun h => by rw [commandEffects, remainingAccesses, accessTotal_mac c s _ h]; rfl⟩
    | sclr => exact ⟨_, rfl, fun _ => rfl⟩
    | swid n => exact ⟨_, rfl, fun _ => rfl⟩
    | sins => exact ⟨_, rfl, fun h => by rw [commandEffects, remainingAccesses, accessTotal_sins s _ h]; rfl⟩
    | ssol => exact ⟨_, rfl, fun h => by rw [commandEffects, remainingAccesses, accessTotal_ssol s _ h]; rfl⟩
  obtain ⟨t, ht, heffects⟩ := hends
  rw [ht]
  cases herr : errorOf i s (s.flight i) with
  | some e => rfl
  | none => rw [heffects herr]

/-- Everything a command can end with: an error completion, or its effects and a successful one. -/
theorem exec_next {i : Instr} {s t : State} (h : exec i s = .next t) :
    (∃ e, errorOf i s (s.flight i) = some e ∧ t = s.errorCompletion e) ∨
    (errorOf i s (s.flight i) = none ∧ t = (commandEffects i s).successCompletion) :=
  conclude_next s _ _ t (exec_eq_conclude i s ▸ h)

/-- Everything the unit itself does to a state in one turn, `engine` or `command` (R56, log 2). -/
inductive EngineMove (s : State) : State → Prop
  /-- Nothing is in flight (R118). -/
  | idle (hidle : s.inflight = none) : EngineMove s s
  /-- An illegal word completes (R110). -/
  | illegal {f : InFlight} {e : Illegal} (hf : s.inflight = some f) (hd : decode f.word = .error e) :
      EngineMove s (s.errorCompletion .illegal)
  /-- One access of the command in flight (R56). -/
  | access {f : InFlight} {i : Instr} (hf : s.inflight = some f) (hd : decode f.word = .ok i)
      (hmade : f.made < accessTotal i s f) :
      EngineMove s ((s.setMem (accessOnce i s (f, s.mem)).2).setInflight (accessOnce i s (f, s.mem)).1)
  /-- The command in flight fails a check (R106). -/
  | fail {f : InFlight} {i : Instr} {e : ErrCode} (hf : s.inflight = some f) (hd : decode f.word = .ok i)
      (herr : errorOf i s f = some e) : EngineMove s (s.errorCompletion e)
  /-- The command in flight has its effects and succeeds (R107). -/
  | succeed {f : InFlight} {i : Instr} (hf : s.inflight = some f) (hd : decode f.word = .ok i)
      (herr : errorOf i s f = none) : EngineMove s (commandEffects i s).successCompletion

theorem EngineMove.of_exec {s t : State} {f : InFlight} {i : Instr} (hf : s.inflight = some f)
    (hd : decode f.word = .ok i) (h : exec i s = .next t) : EngineMove s t := by
  rcases exec_next h with ⟨e, herr, rfl⟩ | ⟨herr, rfl⟩ <;> rw [flight_some s i f hf] at herr
  · exact .fail hf hd herr
  · exact .succeed hf hd herr

theorem engineStep_move {s t : State} (h : engineStep s = .next t) : EngineMove s t := by
  rcases engineStep_cases s with
    ⟨hidle, hs⟩ | ⟨f, e, hf, hd, hs⟩ | ⟨f, i, hf, hd, hmade, hs⟩ | ⟨f, i, hf, hd, -, hs⟩ <;> rw [hs] at h
  · cases h; exact .idle hidle
  · cases h; exact .illegal hf hd
  · cases h; exact .access hf hd hmade
  · exact .of_exec hf hd h

theorem engineRun_move {s t : State} (h : engineRun s = .next t) : EngineMove s t := by
  unfold engineRun at h
  split at h
  next hidle => cases h; exact .idle hidle
  next f hf =>
    split at h
    next e hd => cases h; exact .illegal hf hd
    next i hd => exact .of_exec hf hd h

/-- An access that is not refused is a 32-bit one to the block, `rst` deasserted (R51, R122). -/
theorem busRefusal_eq_none {s : State} {addr bytes : Nat} (h : s.busRefusal addr bytes = none) :
    s.cfg.gfuBase ≤ addr ∧ s.rst = false ∧ bytes = 4 := by
  unfold State.busRefusal at h
  split at h
  · cases h
  next hblock =>
    split at h
    · cases h
    next hrst =>
      split at h
      · cases h
      next hshape => exact ⟨by omega, by simpa using hrst, by omega⟩

/-- Everything one turn can do to a state. -/
inductive TurnMove (s : State) : Turn → State → Prop
  /-- A read, of a register or of a byte, returns a value (R42, R56). -/
  | read {turn : Turn} (v : Word) : TurnMove s turn (s.setReadData v)
  /-- A register write that is not refused (R51). -/
  | write {addr : Nat} {v : Word} (hblock : s.cfg.gfuBase ≤ addr) (hrst : s.rst = false) :
      TurnMove s (.busWrite addr 4 v) (s.writeOffset (addr - s.cfg.gfuBase) v)
  /-- A byte of memory written by the host (R56). -/
  | store {a : Nat} {v : Byte} (ha : a < s.cfg.memSize) : TurnMove s (.memWrite a v) (s.setMem (s.mem.write a v))
  /-- The unit moves. -/
  | unit {turn : Turn} {t : State} (hmove : EngineMove s t) : TurnMove s turn t
  /-- `rst` is driven (R119). -/
  | rst (level : Bool) : TurnMove s (.rst level) (s.setRst level)

theorem takeTurn_move {turn : Turn} {s t : State} (h : takeTurn turn s = .next t) : TurnMove s turn t := by
  cases turn with
  | busRead addr bytes =>
    obtain ⟨-, rfl⟩ := busRead_next s addr bytes t h
    exact .read _
  | busWrite addr bytes v =>
    obtain ⟨hok, rfl⟩ := busWrite_next s addr bytes v t h
    obtain ⟨hblock, hrst, rfl⟩ := busRefusal_eq_none hok
    exact .write hblock hrst
  | memRead a =>
    obtain ⟨-, -, rfl⟩ := hostRead_next s a t h
    exact .read _
  | memWrite a v =>
    obtain ⟨ha, -, rfl⟩ := hostWrite_next s a v t h
    exact .store ha
  | engine => exact .unit (engineStep_move h)
  | command => exact .unit (engineRun_move h)
  | rst level =>
    cases h
    exact .rst level

/-- One step is the engine's, or that of the turn listed first (log 1). -/
theorem step_move {s t : State} (h : step s = .next t) :
    (s.turns = [] ∧ EngineMove s t) ∨ ∃ turn rest, s.turns = turn :: rest ∧ TurnMove (s.setTurns rest) turn t := by
  cases hturns : s.turns with
  | nil => exact .inl ⟨rfl, engineStep_move (step_nil s hturns ▸ h)⟩
  | cons turn rest => exact .inr ⟨turn, rest, rfl, takeTurn_move (step_cons s turn rest hturns ▸ h)⟩

/-! ### What the host's moves leave alone -/

/-- `rst` driven low resets a unit held in reset once more, and is nothing to another (R119). -/
theorem setRst_false (s : State) :
    s.setRst false = if s.rst then { s.resetUnit with rst := false } else s := rfl

/-- A register write changes neither the parameters nor the solver (R19, R35 to R37). -/
theorem writeOffset_frame (s : State) (off : Nat) (v : Word) :
    (s.writeOffset off v).cfg = s.cfg ∧ (s.writeOffset off v).solver = s.solver := by
  rcases writeOffset_cases s off v with
    hw | hw | hw | ⟨-, hw⟩ | ⟨-, hw | hw | hw | hw | hw⟩ <;> rw [hw] <;> exact ⟨rfl, rfl⟩

/-- Driving `rst` keeps the parameters, and keeps or clears the solver (R119). -/
theorem setRst_frame (s : State) (level : Bool) :
    (s.setRst level).cfg = s.cfg ∧ ((s.setRst level).solver = s.solver ∨ (s.setRst level).solver = Solver.clear) := by
  cases level with
  | true => exact ⟨rfl, .inr rfl⟩
  | false =>
    rw [setRst_false]
    split
    · exact ⟨rfl, .inr rfl⟩
    · exact ⟨rfl, .inl rfl⟩

/-! ### The parameters -/

theorem EngineMove.cfg {s t : State} (hmove : EngineMove s t) : t.cfg = s.cfg := by
  cases hmove with
  | idle => rfl
  | illegal => rfl
  | access => rfl
  | fail => rfl
  | @succeed f i => cases i <;> rfl

theorem TurnMove.cfg {turn : Turn} {s t : State} (hmove : TurnMove s turn t) : t.cfg = s.cfg := by
  cases hmove with
  | read => rfl
  | write => exact (writeOffset_frame s _ _).1
  | store => rfl
  | unit hmove => exact hmove.cfg
  | rst level => exact (setRst_frame s level).1

/-- No step changes a parameter (R7 to R11). -/
theorem step_cfg {s t : State} (hstep : step s = .next t) : t.cfg = s.cfg := by
  rcases step_move hstep with ⟨-, hmove⟩ | ⟨turn, rest, -, hmove⟩
  · exact hmove.cfg
  · exact hmove.cfg

end Sys2Proof.Machine
end

section
/-! PROOFS. The shape invariant, kept by every step. -/

namespace Sys2Proof.Machine

/-! ### The checks -/

/-- A list of checks reports nothing exactly if none of them applies (R108). -/
theorem firstError_eq_none_iff (l : List (Bool × ErrCode)) : firstError l = none ↔ ∀ c ∈ l, c.1 = false := by
  induction l with
  | nil => simp
  | cons c l ih =>
    obtain ⟨applies, e⟩ := c
    cases applies <;> simp [ih]

/-- MAC's checks (R89). -/
theorem errorOf_mac_eq_none_iff (c : Byte) (s : State) (f : InFlight) :
    errorOf (.mac c) s f = none ↔
      f.dstNat + f.lenNat ≤ s.cfg.memSize ∧ f.srcNat + f.lenNat ≤ s.cfg.memSize ∧
        overlapping f.dstNat f.srcNat f.lenNat = false := by
  simp [errorOf, macError, firstError_eq_none_iff, inRange, -firstError_cons]

/-- SWID's checks (R97). -/
theorem errorOf_swid_eq_none_iff (n : Nat) (s : State) (f : InFlight) :
    errorOf (.swid n) s f = none ↔ s.solver.width ≤ n ∧ n ≤ s.cfg.maxCols := by
  simp [errorOf, swidError, firstError_eq_none_iff, -firstError_cons]

/-- The checks of SINS (R98). -/
theorem errorOf_sins_eq_none_iff (s : State) (f : InFlight) :
    errorOf .sins s f = none ↔
      f.lenNat ≤ s.cfg.maxSym ∧ (0 < s.solver.rows.length → f.lenNat = s.solver.slen) ∧
        f.coefNat + s.solver.width ≤ s.cfg.memSize ∧ f.srcNat + f.lenNat ≤ s.cfg.memSize := by
  simp [errorOf, sinsError, firstError_eq_none_iff, inRange, -firstError_cons]

/-- The checks of SSOL (R99). -/
theorem errorOf_ssol_eq_none_iff (s : State) (f : InFlight) :
    errorOf .ssol s f = none ↔
      (s.solver.width ≠ 0 ∧ s.solver.rows.length = s.solver.width) ∧
        f.dstNat + s.solver.width * s.solver.slen ≤ s.cfg.memSize := by
  simp [errorOf, ssolError, firstError_eq_none_iff, inRange, -firstError_cons]

/-! ### Memory -/

/-- Memory in canonical form that lists only bytes that exist: the two clauses of `State.Inv` about memory. -/
def Memory.Ok (cfg : Config) (m : Memory) : Prop := m.wf ∧ ∀ c ∈ m, c.1 < cfg.memSize

theorem Memory.Ok.write {cfg : Config} {m : Memory} (h : m.Ok cfg) {a : Nat} (ha : a < cfg.memSize) (v : Byte) :
    (m.write a v).Ok cfg := by
  refine ⟨m.wf_write a v h.1, fun c hc => ?_⟩
  rcases m.mem_write a v c hc with rfl | hc
  · exact ha
  · exact h.2 c hc

theorem Memory.Ok.scramble {cfg : Config} {m : Memory} (h : m.Ok cfg) {a n : Nat}
    (hin : ∀ x, a ≤ x → x < a + n → x < cfg.memSize) (d : Nat) : (m.scramble a d n).Ok cfg := by
  refine ⟨m.wf_scramble a d n h.1, fun c hc => ?_⟩
  rcases m.mem_scramble a d n c hc with ⟨hle, hlt⟩ | hc
  · exact hin _ hle hlt
  · exact h.2 c hc

/-- A command's checks keep the buffer it writes inside memory (R48). -/
theorem writtenBuffer_inside {i : Instr} {s : State} {f : InFlight} {a : Nat}
    (h : inBuffer a (writtenBuffer i s f) = true) : a < s.cfg.memSize := by
  rw [inBuffer_iff] at h
  obtain ⟨hle, hlt⟩ := h
  have hwrites : (writtenBuffer i s f).2 ≠ 0 := by omega
  have herr : errorOf i s f = none := by
    cases he : errorOf i s f with
    | none => rfl
    | some e => simp [writtenBuffer, he] at hwrites
  cases i <;> simp [writtenBuffer, herr] at hwrites hle hlt
  case mac c =>
    obtain ⟨hdst, -, -⟩ := (errorOf_mac_eq_none_iff c s f).1 herr
    omega
  case ssol =>
    obtain ⟨-, hdst⟩ := (errorOf_ssol_eq_none_iff s f).1 herr
    omega

theorem writtenFootprint_inside {s : State} {a : Nat} (h : inBuffer a s.writtenFootprint = true) :
    a < s.cfg.memSize := by
  unfold State.writtenFootprint at h
  split at h
  · simp at h
  · split at h
    · simp at h
    · exact writtenBuffer_inside h

/-! ### The progress of the command in flight -/

/-- A command with an access left fails no check. -/
theorem errorOf_of_access_left {i : Instr} {s : State} {f : InFlight} {k : Nat} (h : k < accessTotal i s f) :
    errorOf i s f = none := by
  cases he : errorOf i s f with
  | none => rfl
  | some e => simp [accessTotal, he] at h

/-- `fm` is a progress that command `i`, in flight as `f`, can have: what `InFlight.progressOk` and the clauses about
memory ask for (R44). -/
structure ProgressKept (i : Instr) (s : State) (f : InFlight) (fm : InFlight × Memory) : Prop where
  operands : sameOperands fm.1 f
  made : fm.1.made ≤ accessTotal i s f
  held : i = .sins → fm.1.fetched.length = fm.1.made
  mem : fm.2.Ok s.cfg

theorem sameOperands.trans {f g k : InFlight} (hfg : sameOperands f g) (hgk : sameOperands g k) : sameOperands f k := by
  obtain ⟨hw, hd, hs, hc, hl⟩ := hfg
  obtain ⟨hw', hd', hs', hc', hl'⟩ := hgk
  exact ⟨hw.trans hw', hd.trans hd', hs.trans hs', hc.trans hc', hl.trans hl'⟩

/-- A command that makes accesses is MAC, SINS or SSOL. -/
theorem access_commands {i : Instr} {s : State} {f : InFlight} {k : Nat} (h : k < accessTotal i s f) :
    (∃ c, i = .mac c ∧ k < 3 * f.lenNat) ∨ (i = .sins ∧ k < s.solver.width + f.lenNat) ∨
      (i = .ssol ∧ k < s.solver.width * s.solver.slen) := by
  have herr := errorOf_of_access_left h
  cases i <;> simp [accessTotal, herr] at h <;> simp [h]

theorem accessOnce_made {i : Instr} {s : State} {f : InFlight} {k : Nat} (h : k < accessTotal i s f)
    (fm : InFlight × Memory) : (accessOnce i s fm).1.made = fm.1.made + 1 := by
  obtain ⟨c, rfl, -⟩ | ⟨rfl, -⟩ | ⟨rfl, -⟩ := access_commands h
  · exact macAccess_made ..
  · exact sinsAccess_made ..
  · exact ssolAccess_made ..

theorem accessOnce_operands {i : Instr} {s : State} {f : InFlight} {k : Nat} (h : k < accessTotal i s f)
    (fm : InFlight × Memory) : sameOperands (accessOnce i s fm).1 fm.1 := by
  obtain ⟨c, rfl, -⟩ | ⟨rfl, -⟩ | ⟨rfl, -⟩ := access_commands h
  · exact macAccess_operands ..
  · exact sinsAccess_operands ..
  · exact ssolAccess_operands ..

/-- SINS holds every byte it reads. -/
theorem sinsAccess_fetched_length (w : Nat) (fm : InFlight × Memory) :
    (sinsAccess w fm).1.fetched.length = fm.1.fetched.length + 1 := by
  unfold sinsAccess
  split <;> simp

/-- An access leaves memory alone or stores one byte of the buffer the command writes (R47, R58). -/
theorem accessOnce_mem {i : Instr} {s : State} {f : InFlight} {fm : InFlight × Memory}
    (hops : sameOperands fm.1 f) (h : fm.1.made < accessTotal i s f) :
    (accessOnce i s fm).2 = fm.2 ∨
      ∃ a v, inBuffer a (writtenBuffer i s f) = true ∧ (accessOnce i s fm).2 = fm.2.write a v := by
  obtain ⟨-, hdst, -, -, -⟩ := hops
  have herr := errorOf_of_access_left h
  obtain ⟨c, rfl, hk⟩ | ⟨rfl, -⟩ | ⟨rfl, hk⟩ := access_commands h
  · simp only [accessOnce, macAccess]
    split
    · exact .inl rfl
    · split
      · exact .inl rfl
      · refine .inr ⟨_, _, ?_, rfl⟩
        simp [writtenBuffer, herr, InFlight.dstNat, hdst]
        omega
  · exact .inl (sinsAccess_mem ..)
  · refine .inr ⟨_, _, ?_, rfl⟩
    simpa [writtenBuffer, herr, InFlight.dstNat, hdst] using hk

theorem ProgressKept.accessOnce {i : Instr} {s : State} {f : InFlight} {fm : InFlight × Memory}
    (h : ProgressKept i s f fm) (hleft : fm.1.made < accessTotal i s f) :
    ProgressKept i s f (accessOnce i s fm) where
  operands := (accessOnce_operands hleft fm).trans h.operands
  made := by rw [accessOnce_made hleft]; exact hleft
  held := by
    rintro rfl
    rw [accessOnce_made hleft, ← h.held rfl]
    exact sinsAccess_fetched_length ..
  mem := by
    rcases accessOnce_mem h.operands hleft with hsame | ⟨a, v, ha, hwrite⟩
    · exact hsame ▸ h.mem
    · exact hwrite ▸ h.mem.write (writtenBuffer_inside ha) v

/-- All accesses made one after the other. -/
theorem ProgressKept.runAccesses {i : Instr} {s : State} {f : InFlight} {n : Nat} (g : InFlight) (m : Memory)
    (hn : accessTotal i s f - g.made = n) (h : ProgressKept i s f (g, m)) :
    ProgressKept i s f (runAccesses (Machine.accessOnce i s) (accessTotal i s f) g m) ∧
      (runAccesses (Machine.accessOnce i s) (accessTotal i s f) g m).1.made = accessTotal i s f := by
  induction n generalizing g m with
  | zero =>
    have hdone : g.made = accessTotal i s f := le_antisymm h.made (by omega)
    rw [runAccesses_done _ _ _ _ hdone.ge]
    exact ⟨h, hdone⟩
  | succ n ih =>
    have hleft : g.made < accessTotal i s f := by omega
    have hmade : (Machine.accessOnce i s (g, m)).1.made = g.made + 1 := accessOnce_made hleft (g, m)
    rw [runAccesses_step _ _ _ _ hmade hleft]
    exact ih _ _ (by rw [hmade]; omega) (h.accessOnce hleft)

/-- The clauses of the invariant about the command in flight, as a progress. -/
theorem State.Inv.progressKept {s : State} (h : s.Inv) {f : InFlight} {i : Instr} (hf : s.inflight = some f)
    (hd : decode f.word = .ok i) : ProgressKept i s f (f, s.mem) := by
  have hprogress := h.progress f hf
  simp only [InFlight.progressOk, hd] at hprogress
  exact ⟨⟨rfl, rfl, rfl, rfl, rfl⟩, hprogress.1, hprogress.2, h.memSorted, h.memInside⟩

/-- The accesses of the command in flight, all made. -/
theorem State.Inv.remainingAccesses {s : State} (h : s.Inv) {f : InFlight} {i : Instr} (hf : s.inflight = some f)
    (hd : decode f.word = .ok i) :
    ProgressKept i s f (remainingAccesses i s) ∧ (Machine.remainingAccesses i s).1.made = accessTotal i s f := by
  rw [Machine.remainingAccesses, flight_some s i f hf]
  exact (h.progressKept hf hd).runAccesses f s.mem rfl

/-- The progress of a command is judged by its word, its operands, the parameters and the solver only. -/
theorem progressOk_congr {f : InFlight} {s t : State} (hc : s.cfg = t.cfg) (hs : s.solver = t.solver)
    (h : f.progressOk s) : f.progressOk t := by
  unfold InFlight.progressOk at h ⊢
  split
  next e hd => simpa only [hd] using h
  next i hd =>
    simp only [hd] at h
    rwa [← accessTotal_congr i hc hs rfl rfl rfl rfl]

/-- Just issued, a command has made no access. -/
theorem freshFlight_progressOk (s t : State) (w : Word) : (s.freshFlight w).progressOk t := by
  unfold InFlight.progressOk
  split
  · exact ⟨rfl, rfl⟩
  · exact ⟨Nat.zero_le _, fun _ => rfl⟩

/-! ### The solver -/

/-- The clauses of `State.Inv` about the solver (R38, R40). -/
structure Solver.Shaped (cfg : Config) (sv : Solver) : Prop where
  widthBound : sv.width ≤ cfg.maxCols
  coefLength : ∀ r ∈ sv.rows, r.coef.length = sv.width
  payloadLength : ∀ r ∈ sv.rows, r.payload.length = sv.slen
  slenBound : sv.slen ≤ cfg.maxSym
  slenClear : sv.rows = [] → sv.slen = 0

theorem Solver.shaped_clear (cfg : Config) : Solver.clear.Shaped cfg where
  widthBound := Nat.zero_le _
  coefLength := fun _ hr => nomatch hr
  payloadLength := fun _ hr => nomatch hr
  slenBound := Nat.zero_le _
  slenClear := fun _ => rfl

theorem Solver.Shaped.grow {cfg : Config} {sv : Solver} (h : sv.Shaped cfg) {n : Nat} (hle : sv.width ≤ n)
    (hmax : n ≤ cfg.maxCols) : (sv.grow n).Shaped cfg where
  widthBound := hmax
  coefLength := fun r hr => by
    obtain ⟨r, hr', rfl⟩ := List.mem_map.1 hr
    simp [Solver.grow, h.coefLength r hr', hle]
  payloadLength := fun r hr => by
    obtain ⟨r, hr', rfl⟩ := List.mem_map.1 hr
    exact h.payloadLength r hr'
  slenBound := h.slenBound
  slenClear := fun hnil => h.slenClear (List.map_eq_nil_iff.1 hnil)

theorem Solver.Shaped.insertRow {cfg : Config} {sv : Solver} (h : sv.Shaped cfg) {n : Nat} {r : Row}
    (hcoef : r.coef.length = sv.width) (hpayload : r.payload.length = n) (hmax : n ≤ cfg.maxSym)
    (hslen : sv.rows ≠ [] → n = sv.slen) (p : BitVec 9) : (sv.insertRow p n r).Shaped cfg := by
  unfold Solver.insertRow
  split
  · exact ⟨h.widthBound, h.coefLength, h.payloadLength, h.slenBound, h.slenClear⟩
  · have hlatch : (if sv.rows.length = 0 then n else sv.slen) = n := by
      split
      · rfl
      next hrows => exact (hslen fun hnil => hrows (by simp [hnil])).symm
    simp only [hlatch]
    refine ⟨h.widthBound, fun q hq => ?_, fun q hq => ?_, hmax, by simp⟩ <;>
      rcases List.mem_append.1 hq with hold | hnew
    · exact h.coefLength q hold
    · exact List.mem_singleton.1 hnew ▸ hcoef
    · exact (h.payloadLength q hold).trans (hslen (List.ne_nil_of_mem hold)).symm
    · exact List.mem_singleton.1 hnew ▸ hpayload

theorem State.Inv.solverShaped {s : State} (h : s.Inv) : s.solver.Shaped s.cfg :=
  ⟨h.widthBound, h.coefLength, h.payloadLength, h.slenBound, h.slenClear⟩

/-! ### The updates of the state -/

namespace State.Inv
variable {s : State} (h : s.Inv)
include h

/-- A command is in flight only while `rst` is not asserted (R119). -/
theorem not_rst_of_inflight {f : InFlight} (hf : s.inflight = some f) : s.rst = false := by
  by_contra hrst
  have hnone : s.inflight = none := congrArg State.inflight (h.heldInReset (by simpa using hrst)).symm
  rw [hf] at hnone
  cases hnone

theorem setTurns (ts : List Turn) : (s.setTurns ts).Inv :=
  { h with
    progress := fun f hf => progressOk_congr rfl rfl (h.progress f hf)
    heldInReset := fun hrst => congrArg (State.setTurns ts) (h.heldInReset hrst) }

theorem setReadData (v : Word) : (s.setReadData v).Inv :=
  { h with
    progress := fun f hf => progressOk_congr rfl rfl (h.progress f hf)
    heldInReset := fun hrst => congrArg (State.setReadData v) (h.heldInReset hrst) }

theorem setMem {m : Memory} (hm : m.Ok s.cfg) : (s.setMem m).Inv :=
  { h with
    memSorted := hm.1
    memInside := hm.2
    progress := fun f hf => progressOk_congr rfl rfl (h.progress f hf)
    heldInReset := fun hrst => congrArg (State.setMem m) (h.heldInReset hrst) }

theorem setResult (hrst : s.rst = false) (v : Byte) : (s.setResult v).Inv :=
  { h with
    progress := fun f hf => progressOk_congr rfl rfl (h.progress f hf)
    heldInReset := fun hr => absurd (hrst.symm.trans hr) (by decide) }

/-- The solver of an idle unit replaced. -/
theorem setSolver (hrst : s.rst = false) (hidle : s.inflight = none) {sv : Solver} (hsv : sv.Shaped s.cfg) :
    (s.setSolver sv).Inv :=
  { h with
    widthBound := hsv.widthBound
    coefLength := hsv.coefLength
    payloadLength := hsv.payloadLength
    slenBound := hsv.slenBound
    slenClear := hsv.slenClear
    progress := fun f hf => absurd (hidle.symm.trans hf) (by simp)
    heldInReset := fun hr => absurd (hrst.symm.trans hr) (by decide) }

/-- The command in flight at a new progress. -/
theorem setInflight (hrst : s.rst = false) {f g : InFlight} (hf : s.inflight = some f) (hops : sameOperands g f)
    (hg : g.progressOk s) : (s.setInflight g).Inv :=
  { h with
    busyNotDone := fun _ => h.busyNotDone (by simp [hf])
    latched := fun k hk => by
      obtain rfl : g = k := Option.some.inj hk
      obtain ⟨-, hdst, hsrc, hcoef, hlen⟩ := hops
      obtain ⟨hdst', hsrc', hcoef', hlen'⟩ := h.latched f hf
      exact ⟨hdst.trans hdst', hsrc.trans hsrc', hcoef.trans hcoef', hlen.trans hlen'⟩
    progress := fun k hk => by
      obtain rfl : g = k := Option.some.inj hk
      exact progressOk_congr rfl rfl hg
    heldInReset := fun hr => absurd (hrst.symm.trans hr) (by decide) }

theorem issue (hrst : s.rst = false) (w : Word) : (s.issue w).Inv :=
  { h with
    busyNotDone := fun _ => rfl
    latched := fun f hf => by cases hf; exact ⟨rfl, rfl, rfl, rfl⟩
    progress := fun f hf => by cases hf; exact freshFlight_progressOk s _ w
    heldInReset := fun hr => absurd (hrst.symm.trans hr) (by decide) }

theorem errorCompletion (hrst : s.rst = false) (e : ErrCode) : (s.errorCompletion e).Inv :=
  { h with
    busyNotDone := fun hbusy => nomatch hbusy
    latched := fun _ hf => nomatch hf
    progress := fun _ hf => nomatch hf
    heldInReset := fun hr => absurd (hrst.symm.trans hr) (by decide) }

theorem successCompletion (hrst : s.rst = false) : s.successCompletion.Inv :=
  { h with
    busyNotDone := fun hbusy => nomatch hbusy
    latched := fun _ hf => nomatch hf
    progress := fun _ hf => nomatch hf
    heldInReset := fun hr => absurd (hrst.symm.trans hr) (by decide) }

/-- The operand registers of an idle unit take any values (R31 to R34). -/
theorem setOperands (hrst : s.rst = false) (hidle : s.inflight = none) (d r c n : Word) :
    ({ s with dst := d, src := r, coef := c, len := n } : State).Inv :=
  { h with
    latched := fun f hf => absurd (hidle.symm.trans hf) (by simp)
    progress := fun f hf => absurd (hidle.symm.trans hf) (by simp)
    heldInReset := fun hr => absurd (hrst.symm.trans hr) (by decide) }

/-- Flags and interrupt enables take any values, DONE none it did not have. -/
theorem setFlags (hrst : s.rst = false) {d : Bool} (hd : s.done = false → d = false) (de ee e o : Bool) :
    ({ s with doneIe := de, errIe := ee, done := d, err := e, ovr := o } : State).Inv :=
  { h with
    busyNotDone := fun hbusy => hd (h.busyNotDone hbusy)
    progress := fun f hf => progressOk_congr rfl rfl (h.progress f hf)
    heldInReset := fun hr => absurd (hrst.symm.trans hr) (by decide) }

/-- A write to the register block (R29, R42, R43). -/
theorem writeOffset (hrst : s.rst = false) (off : Nat) (v : Word) : (s.writeOffset off v).Inv := by
  rcases writeOffset_cases s off v with
    hw | hw | hw | ⟨-, hw⟩ | ⟨hidle, hw | hw | hw | hw | hw⟩ <;> rw [hw]
  · exact h
  · exact h.setFlags hrst id ..
  · exact h.setFlags hrst (fun hdone => by simp [hdone]) ..
  · exact h.setFlags hrst id ..
  · exact h.issue hrst v
  all_goals exact h.setOperands hrst (by simpa [State.busy] using hidle) ..

/-- The reset values in every piece of the unit's state, at either level of `rst` (R119). -/
theorem resetUnit (level : Bool) : ({ s.resetUnit with rst := level } : State).Inv where
  cfgLegal := h.cfgLegal
  memSorted := h.memSorted
  memInside := h.memInside
  widthBound := Nat.zero_le _
  coefLength := fun _ hr => nomatch hr
  payloadLength := fun _ hr => nomatch hr
  slenBound := Nat.zero_le _
  slenClear := fun _ => rfl
  busyNotDone := fun hbusy => nomatch hbusy
  latched := fun _ hf => nomatch hf
  progress := fun _ hf => nomatch hf
  heldInReset := fun _ => rfl

/-- The bytes an abandoned command leaves behind are bytes of memory (R121). -/
theorem abandon : s.abandon.Inv :=
  have hmem : s.abandon.mem.Ok s.cfg :=
    Memory.Ok.scramble ⟨h.memSorted, h.memInside⟩
      (fun _ hle hlt => writtenFootprint_inside ((inBuffer_iff ..).2 ⟨hle, hlt⟩)) s.draws
  { h with
    memSorted := hmem.1
    memInside := hmem.2
    progress := fun f hf => progressOk_congr rfl rfl (h.progress f hf)
    heldInReset := fun hrst =>
      congrArg (fun u : State => { u with mem := s.abandon.mem, draws := s.abandon.draws }) (h.heldInReset hrst) }

/-- The `rst` input driven to a level (R119, R121). -/
theorem setRst (level : Bool) : (s.setRst level).Inv := by
  cases level with
  | true => exact h.abandon.resetUnit true
  | false =>
    rw [setRst_false]
    split
    · exact h.resetUnit false
    · exact h

end State.Inv

/-! ### The turns -/

/-- All accesses made, SINS holds the bytes of both vectors (R98). -/
theorem State.Inv.length_fetched {s : State} (h : s.Inv) {f : InFlight} (hf : s.inflight = some f)
    (hd : decode f.word = .ok .sins) (herr : errorOf .sins s f = none) :
    (Machine.remainingAccesses .sins s).1.fetched.length = s.solver.width + f.lenNat := by
  obtain ⟨hkept, hmade⟩ := h.remainingAccesses hf hd
  rw [hkept.held rfl, hmade, accessTotal_sins s f herr]

/-- The row SINS reads has the lengths of R98, so the solver keeps its shape with it. -/
theorem State.Inv.insert_candidate {s : State} (h : s.Inv) {f : InFlight} (hf : s.inflight = some f)
    (hd : decode f.word = .ok .sins) (herr : errorOf .sins s f = none) :
    (s.solver.insertRow s.cfg.fieldPoly f.lenNat
      (candidate s.solver.width (Machine.remainingAccesses .sins s).1.fetched)).Shaped s.cfg := by
  have hlength := h.length_fetched hf hd herr
  obtain ⟨hmax, hslen, -, -⟩ := (errorOf_sins_eq_none_iff s f).1 herr
  exact h.solverShaped.insertRow (by simp [candidate, hlength]) (by simp [candidate, hlength]) hmax
    (fun hrows => hslen (List.length_pos_iff.2 hrows)) _

/-- The effects of the command in flight, and its completion (R107). -/
theorem State.Inv.succeed {s : State} (h : s.Inv) {f : InFlight} {i : Instr} (hf : s.inflight = some f)
    (hd : decode f.word = .ok i) (herr : errorOf i s f = none) : (commandEffects i s).successCompletion.Inv := by
  have hrst : s.rst = false := h.not_rst_of_inflight hf
  have hdone := h.successCompletion hrst
  obtain ⟨hkept, -⟩ := h.remainingAccesses hf hd
  cases i with
  | add a b => exact hdone.setResult hrst _
  | mul a b => exact hdone.setResult hrst _
  | div a b => exact hdone.setResult hrst _
  | inv a => exact hdone.setResult hrst _
  | mac c => exact hdone.setMem hkept.mem
  | sclr => exact hdone.setSolver hrst rfl (Solver.shaped_clear _)
  | swid n =>
    obtain ⟨hle, hmax⟩ := (errorOf_swid_eq_none_iff n s f).1 herr
    exact hdone.setSolver hrst rfl (h.solverShaped.grow hle hmax)
  | sins =>
    rw [commandEffects, flight_some s .sins f hf]
    exact hdone.setSolver hrst rfl (h.insert_candidate hf hd herr)
  | ssol => exact (hdone.setMem hkept.mem).setSolver hrst rfl (Solver.shaped_clear _)

/-- One access of the command in flight (R56). -/
theorem State.Inv.access {s : State} (h : s.Inv) {f : InFlight} {i : Instr} (hf : s.inflight = some f)
    (hd : decode f.word = .ok i) (hmade : f.made < accessTotal i s f) :
    ((s.setMem (accessOnce i s (f, s.mem)).2).setInflight (accessOnce i s (f, s.mem)).1).Inv := by
  have hkept := (h.progressKept hf hd).accessOnce hmade
  obtain ⟨hword, hdst, hsrc, hcoef, hlen⟩ := hkept.operands
  refine (h.setMem hkept.mem).setInflight (h.not_rst_of_inflight hf) hf hkept.operands ?_
  have htotal : accessTotal i (s.setMem (accessOnce i s (f, s.mem)).2) (accessOnce i s (f, s.mem)).1 =
      accessTotal i s f := accessTotal_congr i rfl rfl hdst hsrc hcoef hlen
  simp only [InFlight.progressOk, hword, hd, htotal]
  exact ⟨hkept.made, hkept.held⟩

theorem EngineMove.keepsInv {s t : State} (hmove : EngineMove s t) (h : s.Inv) : t.Inv := by
  cases hmove with
  | idle => exact h
  | illegal hf _ => exact h.errorCompletion (h.not_rst_of_inflight hf) _
  | access hf hd hmade => exact h.access hf hd hmade
  | fail hf _ _ => exact h.errorCompletion (h.not_rst_of_inflight hf) _
  | succeed hf hd herr => exact h.succeed hf hd herr

theorem TurnMove.keepsInv {turn : Turn} {s t : State} (hmove : TurnMove s turn t) (h : s.Inv) : t.Inv := by
  cases hmove with
  | read v => exact h.setReadData v
  | write _ hrst => exact h.writeOffset hrst _ _
  | store ha => exact h.setMem (Memory.Ok.write ⟨h.memSorted, h.memInside⟩ ha _)
  | unit hmove => exact hmove.keepsInv h
  | rst level => exact h.setRst level

/-- Settles O59: every move of the host or the unit keeps the invariant, by the update of the state it makes. -/
theorem stepKeepsInv : Obligations.StepKeepsInv := by
  intro s t h hstep
  rcases step_move hstep with ⟨-, hmove⟩ | ⟨turn, rest, -, hmove⟩
  · exact hmove.keepsInv h
  · exact hmove.keepsInv (h.setTurns rest)

end Sys2Proof.Machine
end

section
/-! PROOFS. GF(2^8): the ring laws of gf_add and gf_mul for every reduction polynomial (40_field_scalar.md R80, R81, R84). -/

namespace Sys2Proof.Machine

/-- Multiplication by x, on its own: what R81's loop does to its `t` (R81). -/
def shiftReduce (low t : Byte) : Byte := if t.getLsbD 7 then (t <<< 1) ^^^ low else t <<< 1

theorem gfMulStep_eq (low b : Byte) (pt : Byte × Byte) (i : Nat) :
    gfMulStep low b pt i = (if b.getLsbD i then pt.1 ^^^ pt.2 else pt.1, shiftReduce low pt.2) := rfl

theorem shiftReduce_xor (low s t : Byte) : shiftReduce low (s ^^^ t) = shiftReduce low s ^^^ shiftReduce low t := by
  simp only [shiftReduce, BitVec.getLsbD_xor, BitVec.shiftLeft_xor_distrib]
  cases s.getLsbD 7 <;> cases t.getLsbD 7 <;> simp <;> ac_nf
  simp

/-- An additive map of the bytes that commutes with multiplication by x goes through R81's loop. -/
theorem map_foldl_gfMulStep {low : Byte} {F : Byte → Byte} (hadd : ∀ s t, F (s ^^^ t) = F s ^^^ F t)
    (hx : ∀ t, F (shiftReduce low t) = shiftReduce low (F t)) (b : Byte) (l : List Nat) (pt : Byte × Byte) :
    F (l.foldl (gfMulStep low b) pt).1 = (l.foldl (gfMulStep low b) (F pt.1, F pt.2)).1 := by
  induction l generalizing pt with
  | nil => rfl
  | cons i l ih =>
    simp only [List.foldl_cons, ih, gfMulStep_eq, hx, apply_ite F, hadd]

theorem map_gfMul {p : BitVec 9} {F : Byte → Byte} (hadd : ∀ s t, F (s ^^^ t) = F s ^^^ F t)
    (hx : ∀ t, F (shiftReduce (p.setWidth 8) t) = shiftReduce (p.setWidth 8) (F t)) (a b : Byte) :
    F (gfMul p a b) = gfMul p (F a) b := by
  have hzero : F 0 = 0 := by simpa using hadd 0 0
  unfold gfMul
  rw [map_foldl_gfMulStep hadd hx b _ _]
  exact congrArg (fun z => (List.foldl _ (z, F a) _).1) hzero

theorem foldl_gfMulStep_xor (low b : Byte) (l : List Nat) (s t : Byte × Byte) :
    (l.foldl (gfMulStep low b) (s.1 ^^^ t.1, s.2 ^^^ t.2)).1 =
      (l.foldl (gfMulStep low b) s).1 ^^^ (l.foldl (gfMulStep low b) t).1 := by
  induction l generalizing s t with
  | nil => rfl
  | cons i l ih =>
    rw [List.foldl_cons, List.foldl_cons, List.foldl_cons, ← ih]
    simp only [gfMulStep_eq, shiftReduce_xor]
    split
    · rw [show s.1 ^^^ t.1 ^^^ (s.2 ^^^ t.2) = s.1 ^^^ s.2 ^^^ (t.1 ^^^ t.2) by ac_rfl]
    · rfl

/-- gf_mul is additive in its first factor (R84). -/
theorem xor_gfMul (p : BitVec 9) (a b c : Byte) : gfMul p (a ^^^ b) c = gfMul p a c ^^^ gfMul p b c := by
  have h := foldl_gfMulStep_xor (p.setWidth 8) c (List.range 8) (0x00#8, a) (0x00#8, b)
  rwa [BitVec.xor_self] at h

theorem shiftReduce_gfMul (p : BitVec 9) (a b : Byte) :
    shiftReduce (p.setWidth 8) (gfMul p a b) = gfMul p (shiftReduce (p.setWidth 8) a) b :=
  map_gfMul (shiftReduce_xor _) (fun _ => rfl) a b

/-- The factors after the first can be taken in either order. -/
theorem gfMul_right_comm (p : BitVec 9) (a b c : Byte) : gfMul p (gfMul p a b) c = gfMul p (gfMul p a c) b :=
  map_gfMul (F := (gfMul p · c)) (fun s t => xor_gfMul p s t c) (fun t => (shiftReduce_gfMul p t c).symm) a b

/-- The low `n + 1` bits of a byte are its low `n` bits and bit `n`. -/
theorem setWidth_succ_eq_xor (b : Byte) (n : Nat) :
    (if b.getLsbD n then BitVec.setWidth 8 (b.setWidth n) ^^^ BitVec.twoPow 8 n else BitVec.setWidth 8 (b.setWidth n)) =
      BitVec.setWidth 8 (b.setWidth (n + 1)) := by
  refine BitVec.eq_of_getLsbD_eq fun i hi => ?_
  rcases lt_trichotomy i n with hlt | rfl | hgt
  · split <;> simp [hi, hlt, hlt.ne, hlt.trans n.lt_succ_self]
  · rw [BitVec.getLsbD_eq_getElem hi]
    cases hb : b[i] <;> simp [hi, hb]
  · split <;> simp [hi, hgt.not_gt, hgt.ne', not_lt.2 (Nat.succ_le_of_lt hgt)]

/-- Up to x^7 no power of x is reduced: the loop on the factor 1 collects the bits of the other factor. -/
theorem foldl_gfMulStep_one (low b : Byte) (n : Nat) (hn : n ≤ 7) :
    (List.range n).foldl (gfMulStep low b) (0x00#8, 0x01#8) =
      (BitVec.setWidth 8 (b.setWidth n), BitVec.twoPow 8 n) := by
  induction n with
  | zero => exact Prod.ext (BitVec.eq_of_getLsbD_eq (by simp)) rfl
  | succ n ih =>
    have hshift : shiftReduce low (BitVec.twoPow 8 n) = BitVec.twoPow 8 (n + 1) := by
      have hbit : (BitVec.twoPow 8 n).getLsbD 7 = false := by
        rw [BitVec.getLsbD_twoPow]; simp; omega
      rw [shiftReduce, hbit]
      simp [BitVec.twoPow_eq, BitVec.shiftLeft_add]
    rw [List.range_succ, List.foldl_append, ih (by omega), List.foldl_cons, List.foldl_nil, gfMulStep_eq, hshift,
      setWidth_succ_eq_xor]

/-- 1 is neutral (R84). -/
theorem one_gfMul (p : BitVec 9) (b : Byte) : gfMul p 0x01#8 b = b := by
  rw [gfMul, List.range_succ, List.foldl_append, foldl_gfMulStep_one _ b 7 le_rfl, List.foldl_cons, List.foldl_nil,
    gfMulStep_eq, setWidth_succ_eq_xor]
  simp

theorem gfMul_comm (p : BitVec 9) (a b : Byte) : gfMul p a b = gfMul p b a := by
  simpa only [one_gfMul] using gfMul_right_comm p 0x01#8 a b

theorem gfMul_assoc (p : BitVec 9) (a b c : Byte) : gfMul p (gfMul p a b) c = gfMul p a (gfMul p b c) := by
  rw [gfMul_comm p a b, gfMul_right_comm, gfMul_comm p _ a]

end Sys2Proof.Machine
end

section
/-! PROOFS. The bytes under gf_add and gf_mul are a field for every legal polynomial (40_field_scalar.md R84). -/

namespace Sys2Proof.Machine

open Function

theorem zero_gfMul (p : BitVec 9) (a : Byte) : gfMul p 0x00#8 a = 0x00#8 := by
  simpa using xor_gfMul p 0x00#8 0x00#8 a

theorem gfMul_zero (p : BitVec 9) (a : Byte) : gfMul p a 0x00#8 = 0x00#8 := by
  rw [gfMul_comm, zero_gfMul]

theorem gfMul_one (p : BitVec 9) (a : Byte) : gfMul p a 0x01#8 = a := by
  rw [gfMul_comm, one_gfMul]

/-- The distributive law (R84). -/
theorem gfMul_gfAdd (p : BitVec 9) (a b c : Byte) : gfMul p a (gfAdd b c) = gfAdd (gfMul p a b) (gfMul p a c) := by
  simp only [gfAdd, gfMul_comm p a, xor_gfMul]

/-- Multiplying by x again and again is multiplying by a power of x. -/
theorem iterate_gfMul_two (p : BitVec 9) (k : Nat) (a : Byte) :
    (fun t => gfMul p t 0x02)^[k] a = gfMul p a ((fun t => gfMul p t 0x02)^[k] 0x01) := by
  have hX : Semiconj (gfMul p a) (fun t => gfMul p t 0x02) (fun t => gfMul p t 0x02) :=
    fun t => (gfMul_assoc p a t 0x02).symm
  exact ((hX.iterate_right k 0x01).trans (congrArg _ (gfMul_one p a))).symm

theorem legalPolys_getLsbD_eight {p : BitVec 9} (hp : p ∈ legalPolys) : p.getLsbD 8 = true := by
  have hall : ∀ q ∈ legalPolys, q.getLsbD 8 = true := by decide +kernel
  exact hall p hp

/-- Under a legal polynomial x has order 255 (R7), so its powers are all the nonzero bytes. -/
theorem exists_power_of_two {p : BitVec 9} (hp : p ∈ legalPolys) {a : Byte} (ha : a ≠ 0x00#8) :
    ∃ k < 255, (fun t => gfMul p t 0x02)^[k] 0x01 = a := by
  set X : Byte → Byte := fun t => gfMul p t 0x02
  obtain ⟨hreturn, hfirst⟩ := (legalPolynomialsArePrimitive.2.2 p (legalPolys_getLsbD_eight hp)).1 hp
  have hperiodic : IsPeriodicPt X 255 0x01 := hreturn
  have hperiod : minimalPeriod X 0x01 = 255 := by
    refine (hperiodic.minimalPeriod_le (by decide)).eq_of_not_lt fun hlt => ?_
    exact hfirst _ (hperiodic.minimalPeriod_pos (by decide)) hlt iterate_minimalPeriod
  have hinj : Set.InjOn (fun k => X^[k] 0x01) (Set.Iio 255) := hperiod ▸ iterate_injOn_Iio_minimalPeriod
  have hne (k : Nat) (hk : k < 255) : X^[k] 0x01 ≠ 0x00#8 := fun hzero => by
    have hback : X^[255 - k] (X^[k] 0x01) = 0x01 := by
      rw [← iterate_add_apply, Nat.sub_add_cancel hk.le, hreturn]
    rw [hzero, iterate_gfMul_two, zero_gfMul] at hback
    exact absurd hback (by decide)
  have hmaps : Set.MapsTo (fun k => (X^[k] 0x01).toNat) (Finset.range 255) (Finset.Ico 1 256) := fun k hk =>
    have hpos : (X^[k] 0x01).toNat ≠ 0 := fun hzero => hne k (Finset.mem_range.1 hk) (BitVec.eq_of_toNat_eq hzero)
    Finset.mem_Ico.2 ⟨Nat.one_le_iff_ne_zero.2 hpos, BitVec.isLt _⟩
  have hsurj := Finset.surjOn_of_injOn_of_card_le _ hmaps
    (fun j hj k hk h => hinj (Finset.mem_range.1 hj) (Finset.mem_range.1 hk) (BitVec.eq_of_toNat_eq h)) (by simp)
  have hpos : a.toNat ≠ 0 := fun hzero => ha (BitVec.eq_of_toNat_eq hzero)
  obtain ⟨k, hk, hka⟩ := hsurj (Finset.mem_coe.2 (Finset.mem_Ico.2 ⟨Nat.one_le_iff_ne_zero.2 hpos, a.isLt⟩))
  exact ⟨k, Finset.mem_range.1 hk, BitVec.eq_of_toNat_eq hka⟩

theorem exists_gfMul_eq_one {p : BitVec 9} (hp : p ∈ legalPolys) {a : Byte} (ha : a ≠ 0x00#8) :
    ∃ b, gfMul p a b = 0x01#8 := by
  obtain ⟨k, hk, rfl⟩ := exists_power_of_two hp ha
  refine ⟨(fun t => gfMul p t 0x02)^[255 - k] 0x01, ?_⟩
  obtain ⟨hreturn, -⟩ := (legalPolynomialsArePrimitive.2.2 p (legalPolys_getLsbD_eight hp)).1 hp
  rw [← iterate_gfMul_two, ← iterate_add_apply, Nat.sub_add_cancel hk.le]
  exact hreturn

/-- R82: gf_inv finds the inverse of a nonzero element. -/
theorem gfMul_gfInv {p : BitVec 9} (hp : p ∈ legalPolys) {a : Byte} (ha : a ≠ 0x00#8) :
    gfMul p a (gfInv p a) = 0x01#8 := by
  obtain ⟨b, hb⟩ := exists_gfMul_eq_one hp ha
  unfold gfInv
  cases hfind : ((List.range 256).map (BitVec.ofNat 8)).find? (fun b => gfMul p a b == 0x01#8) with
  | none =>
    have hmem : b ∈ (List.range 256).map (BitVec.ofNat 8) :=
      List.mem_map.2 ⟨b.toNat, List.mem_range.2 b.isLt, BitVec.ofNat_toNat ..⟩
    exact absurd hb (by simpa using List.find?_eq_none.1 hfind b hmem)
  | some c => simpa using List.find?_some hfind

/-- R84: under a legal polynomial the bytes are a field. -/
abbrev byteField {p : BitVec 9} (hp : p ∈ legalPolys) : Field Byte :=
  @Field.ofMinimalAxioms Byte ⟨gfAdd⟩ ⟨gfMul p⟩ ⟨id⟩ ⟨fun a => if a = 0x00#8 then 0x00#8 else gfInv p a⟩
    ⟨0x00#8⟩ ⟨0x01#8⟩
    BitVec.xor_assoc (fun _ => BitVec.zero_xor) (fun _ => BitVec.xor_self) (gfMul_assoc p) (gfMul_comm p) (one_gfMul p)
    (fun _ ha => (congrArg (gfMul p _) (if_neg ha)).trans (gfMul_gfInv hp ha)) (if_pos rfl) (gfMul_gfAdd p)
    ⟨0x00#8, 0x01#8, by decide⟩

/-- A field whose sum and product are gf_add and gf_mul, read through `value`. -/
structure FieldModel (p : BitVec 9) (K : Type) [Field K] where
  value : Byte ≃ K
  value_gfAdd : ∀ a b, value (gfAdd a b) = value a + value b
  value_gfMul : ∀ a b, value (gfMul p a b) = value a * value b

/-- Under a legal polynomial there is such a field: the bytes themselves. -/
theorem exists_fieldModel {p : BitVec 9} (hp : p ∈ legalPolys) :
    ∃ (K : Type) (_ : Field K), Nonempty (FieldModel p K) :=
  let field := byteField hp
  ⟨Byte, field, ⟨{ value := Equiv.refl Byte, value_gfAdd := fun _ _ => rfl, value_gfMul := fun _ _ => rfl }⟩⟩

end Sys2Proof.Machine
end

section
/-! PROOFS. Linear algebra over the field of the bytes: the model's span (R92) is that of a vector space, and the
elimination of R100 decides it. -/

namespace Sys2Proof.Machine

/-! ### Vectors of bytes -/

@[simp] theorem length_vecAdd (u v : List Byte) : (vecAdd u v).length = min u.length v.length := List.length_zipWith

@[simp] theorem length_vecScale (p : BitVec 9) (k : Byte) (v : List Byte) : (vecScale p k v).length = v.length :=
  List.length_map _

theorem getD_vecAdd {u v : List Byte} (h : u.length = v.length) (q : Nat) :
    (vecAdd u v).getD q 0x00#8 = gfAdd (u.getD q 0x00#8) (v.getD q 0x00#8) := by
  rw [vecAdd, List.getD_eq_getElem?_getD, List.getElem?_zipWith]
  by_cases hq : q < u.length
  · simp [hq, h ▸ hq]
  · simp [hq, h ▸ hq, gfAdd]

theorem getD_vecScale (p : BitVec 9) (k : Byte) (v : List Byte) (q : Nat) :
    (vecScale p k v).getD q 0x00#8 = gfMul p k (v.getD q 0x00#8) := by
  rw [← List.getD_map (f := gfMul p k), gfMul_zero, vecScale]

theorem length_linComb (p : BitVec 9) {w : Nat} (ks : List Byte) {vs : List (List Byte)} (h : ∀ v ∈ vs, v.length = w) :
    (linComb p w ks vs).length = w := by
  unfold linComb
  induction vs generalizing ks with
  | nil => simp
  | cons v vs ih =>
    cases ks with
    | nil => simp
    | cons k ks => simp_all

theorem linComb_cons (p : BitVec 9) (w : Nat) (k : Byte) (ks : List Byte) (v : List Byte) (vs : List (List Byte)) :
    linComb p w (k :: ks) (v :: vs) = vecAdd (vecScale p k v) (linComb p w ks vs) := rfl

namespace FieldModel
variable {p : BitVec 9} {K : Type} [Field K] (φ : FieldModel p K)

@[simp] theorem value_zero : φ.value 0x00#8 = 0 := by
  simpa [gfAdd] using φ.value_gfAdd 0x00#8 0x00#8

@[simp] theorem value_one : φ.value 0x01#8 = 1 := by
  have hne : φ.value 0x01#8 ≠ 0 := fun h => absurd (φ.value.injective (h.trans φ.value_zero.symm)) (by decide)
  have hsquare := φ.value_gfMul 0x01#8 0x01#8
  rw [one_gfMul] at hsquare
  exact (mul_eq_left₀ hne).1 hsquare.symm

theorem value_eq_zero_iff (a : Byte) : φ.value a = 0 ↔ a = 0x00#8 :=
  ⟨fun h => φ.value.injective (h.trans φ.value_zero.symm), fun h => h ▸ φ.value_zero⟩

/-- A list of bytes as a vector of `w` field elements. -/
def vec (w : Nat) (v : List Byte) : Fin w → K := fun j => φ.value (v.getD j 0x00#8)

theorem vec_vecAdd (w : Nat) {u v : List Byte} (h : u.length = v.length) :
    φ.vec w (vecAdd u v) = φ.vec w u + φ.vec w v := by
  ext j
  simp only [vec, getD_vecAdd h, φ.value_gfAdd, Pi.add_apply]

theorem vec_vecScale (w : Nat) (k : Byte) (v : List Byte) : φ.vec w (vecScale p k v) = φ.value k • φ.vec w v := by
  ext j
  simp only [vec, getD_vecScale, φ.value_gfMul, Pi.smul_apply, smul_eq_mul]

theorem vec_replicate_zero (w n : Nat) : φ.vec w (List.replicate n 0x00#8) = 0 := by
  ext j
  simp [vec, List.getD_eq_getElem?_getD, List.getElem?_replicate]
  split <;> simp

theorem vec_injective {w : Nat} {u v : List Byte} (hu : u.length = w) (hv : v.length = w)
    (h : φ.vec w u = φ.vec w v) : u = v := by
  subst hu
  refine List.ext_getElem hv.symm fun j hj hj' => ?_
  have hvalue := φ.value.injective (congrFun h ⟨j, hj⟩)
  simpa [hj, hj'] using hvalue

/-- The span of a list of vectors. -/
def spanOf (w : Nat) (vs : List (List Byte)) : Submodule K (Fin w → K) := Submodule.span K (φ.vec w '' {v | v ∈ vs})

theorem spanOf_cons (w : Nat) (v : List Byte) (vs : List (List Byte)) :
    φ.spanOf w (v :: vs) = Submodule.span K (insert (φ.vec w v) (φ.vec w '' {v | v ∈ vs})) := by
  rw [spanOf, ← Set.image_insert_eq]
  congr 2
  ext u
  simp

theorem vec_mem_spanOf (w : Nat) {v : List Byte} {vs : List (List Byte)} (h : v ∈ vs) : φ.vec w v ∈ φ.spanOf w vs :=
  Submodule.subset_span ⟨v, h, rfl⟩

theorem spanOf_mono {w : Nat} {us vs : List (List Byte)} (h : us ⊆ vs) : φ.spanOf w us ≤ φ.spanOf w vs :=
  Submodule.span_mono (Set.image_mono h)

/-- The linear combinations of R92 are the elements of the span. -/
theorem mem_spanOf_iff {w : Nat} {vs : List (List Byte)} (hvs : ∀ v ∈ vs, v.length = w) (x : Fin w → K) :
    x ∈ φ.spanOf w vs ↔ ∃ ks : List Byte, ks.length = vs.length ∧ φ.vec w (linComb p w ks vs) = x := by
  induction vs generalizing x with
  | nil =>
    have hzero : φ.vec w (linComb p w [] []) = 0 := φ.vec_replicate_zero w w
    simp [spanOf, List.length_eq_zero_iff, hzero, eq_comm (a := x)]
  | cons v vs ih =>
    have hv : v.length = w := hvs v List.mem_cons_self
    have htail : ∀ u ∈ vs, u.length = w := fun u hu => hvs u (List.mem_cons_of_mem v hu)
    have hcons (k : Byte) (ks : List Byte) :
        φ.vec w (linComb p w (k :: ks) (v :: vs)) = φ.value k • φ.vec w v + φ.vec w (linComb p w ks vs) := by
      rw [linComb_cons, vec_vecAdd _ _ (by rw [length_vecScale, hv, length_linComb p ks htail]), vec_vecScale]
    rw [spanOf_cons, Submodule.mem_span_insert]
    constructor
    · rintro ⟨k, z, hz, rfl⟩
      obtain ⟨ks, hks, rfl⟩ := (ih htail z).1 hz
      exact ⟨φ.value.symm k :: ks, by simp [hks], by simp [hcons]⟩
    · rintro ⟨ks, hks, rfl⟩
      obtain ⟨k, ks, rfl⟩ := List.exists_cons_of_length_eq_add_one hks
      exact ⟨φ.value k, _, (ih htail _).2 ⟨ks, by simpa using hks, rfl⟩, hcons k ks⟩

/-- R92's span is the span of the vector space. -/
theorem inSpan_iff {w : Nat} {vs : List (List Byte)} {c : List Byte} (hvs : ∀ v ∈ vs, v.length = w)
    (hc : c.length = w) : InSpan p w vs c ↔ φ.vec w c ∈ φ.spanOf w vs := by
  rw [mem_spanOf_iff φ hvs]
  exact exists_congr fun ks => and_congr_right fun _ =>
    ⟨fun h => congrArg _ h, fun h => φ.vec_injective (length_linComb p ks hvs) hc h⟩

end FieldModel

/-! ### The reduced form -/

/-- Row-echelon form, reduced: every basis row has `w` columns, 1 at its own pivot and 0 at the pivots of the others
(R100). -/
structure ReducedForm (w : Nat) (basis : List BasisRow) : Prop where
  length : ∀ b ∈ basis, b.row.coef.length = w
  pivotOne : ∀ b ∈ basis, b.row.coef.getD b.pivot 0x00#8 = 0x01#8
  pivotsZero : basis.Pairwise fun b c =>
    b.row.coef.getD c.pivot 0x00#8 = 0x00#8 ∧ c.row.coef.getD b.pivot 0x00#8 = 0x00#8

theorem ReducedForm.tail {w : Nat} {b : BasisRow} {basis : List BasisRow} (h : ReducedForm w (b :: basis)) :
    ReducedForm w basis where
  length := fun c hc => h.length c (List.mem_cons_of_mem b hc)
  pivotOne := fun c hc => h.pivotOne c (List.mem_cons_of_mem b hc)
  pivotsZero := (List.pairwise_cons.1 h.pivotsZero).2

theorem getD_eliminate (p : BitVec 9) (f : Byte) {b r : Row} (h : r.coef.length = b.coef.length) (q : Nat) :
    (Row.eliminate p f b r).coef.getD q 0x00#8 =
      gfAdd (r.coef.getD q 0x00#8) (gfMul p f (b.coef.getD q 0x00#8)) := by
  rw [Row.eliminate, getD_vecAdd (by simpa using h), getD_vecScale]

theorem length_eliminate (p : BitVec 9) (f : Byte) {b r : Row} (h : r.coef.length = b.coef.length) :
    (Row.eliminate p f b r).coef.length = r.coef.length := by
  simp [Row.eliminate, h]

theorem reduceRow_cons (p : BitVec 9) (b : BasisRow) (basis : List BasisRow) (r : Row) :
    reduceRow p (b :: basis) r = reduceRow p basis (Row.eliminate p (r.coef.getD b.pivot 0x00#8) b.row r) := rfl

section Reduce
variable {p : BitVec 9} {w : Nat}

theorem length_reduceRow {basis : List BasisRow} (hb : ∀ b ∈ basis, b.row.coef.length = w) {r : Row}
    (hr : r.coef.length = w) : (reduceRow p basis r).coef.length = w := by
  induction basis generalizing r with
  | nil => exact hr
  | cons b basis ih =>
    have hlen : r.coef.length = b.row.coef.length := hr.trans (hb b List.mem_cons_self).symm
    exact ih (fun c hc => hb c (List.mem_cons_of_mem b hc)) ((length_eliminate p _ hlen).trans hr)

/-- Reduction leaves a column alone in which all basis rows are 0. -/
theorem getD_reduceRow_of_zero {basis : List BasisRow} (hb : ∀ b ∈ basis, b.row.coef.length = w) {q : Nat}
    (hq : ∀ b ∈ basis, b.row.coef.getD q 0x00#8 = 0x00#8) {r : Row} (hr : r.coef.length = w) :
    (reduceRow p basis r).coef.getD q 0x00#8 = r.coef.getD q 0x00#8 := by
  induction basis generalizing r with
  | nil => rfl
  | cons b basis ih =>
    have hlen : r.coef.length = b.row.coef.length := hr.trans (hb b List.mem_cons_self).symm
    rw [reduceRow_cons, ih (fun c hc => hb c (List.mem_cons_of_mem b hc)) (fun c hc => hq c (List.mem_cons_of_mem b hc))
      ((length_eliminate p _ hlen).trans hr), getD_eliminate p _ hlen, hq b List.mem_cons_self]
    exact (congrArg (gfAdd _) (gfMul_zero p _)).trans BitVec.xor_zero

/-- A reduced row is 0 at every pivot (R100). -/
theorem ReducedForm.getD_reduceRow {basis : List BasisRow} (h : ReducedForm w basis) {r : Row}
    (hr : r.coef.length = w) : ∀ b ∈ basis, (reduceRow p basis r).coef.getD b.pivot 0x00#8 = 0x00#8 := by
  induction basis generalizing r with
  | nil => simp
  | cons c basis ih =>
    have hlen : r.coef.length = c.row.coef.length := hr.trans (h.length c List.mem_cons_self).symm
    have hr' := (length_eliminate p (r.coef.getD c.pivot 0x00#8) hlen).trans hr
    obtain ⟨hzero, -⟩ := List.pairwise_cons.1 h.pivotsZero
    rw [reduceRow_cons]
    refine List.forall_mem_cons.2 ⟨?_, ih h.tail hr'⟩
    rw [getD_reduceRow_of_zero h.tail.length (fun b hb => (hzero b hb).2) hr', getD_eliminate p _ hlen,
      h.pivotOne c List.mem_cons_self]
    exact (congrArg (gfAdd _) (gfMul_one p _)).trans BitVec.xor_self

/-- No leading column: the zero vector. -/
theorem leadingColumn_eq_none_iff (c : List Byte) : leadingColumn c = none ↔ ∀ x ∈ c, x = 0x00#8 := by
  simp [leadingColumn, List.findIdx?_eq_none_iff]

/-- At its leading column a vector is not 0. -/
theorem getD_leadingColumn {c : List Byte} {q : Nat} (h : leadingColumn c = some q) : c.getD q 0x00#8 ≠ 0x00#8 := by
  obtain ⟨hq, hne, -⟩ := List.findIdx?_eq_some_iff_getElem.1 h
  simpa [hq] using hne

/-- The new basis row: 1 at its pivot, and 0 at the other pivots (R100). -/
theorem getD_normalize (p : BitVec 9) (q : Nat) (r : Row) (j : Nat) :
    (normalize p q r).coef.getD j 0x00#8 = gfMul p (gfInv p (r.coef.getD q 0x00#8)) (r.coef.getD j 0x00#8) :=
  getD_vecScale ..

theorem getD_clearColumn (p : BitVec 9) (q : Nat) {n : Row} {b : BasisRow} (h : b.row.coef.length = n.coef.length)
    (j : Nat) : (clearColumn p q n b).row.coef.getD j 0x00#8 =
      gfAdd (b.row.coef.getD j 0x00#8) (gfMul p (b.row.coef.getD q 0x00#8) (n.coef.getD j 0x00#8)) :=
  getD_eliminate p _ h j

theorem ReducedForm.addReduced (hp : p ∈ legalPolys) {basis : List BasisRow} (h : ReducedForm w basis) {r : Row}
    (hr : r.coef.length = w) (hzero : ∀ b ∈ basis, r.coef.getD b.pivot 0x00#8 = 0x00#8) :
    ReducedForm w (addReduced p basis r) := by
  unfold Machine.addReduced
  split
  · exact h
  next q hq =>
    set n := normalize p q r
    have hnlength : n.coef.length = w := (length_vecScale ..).trans hr
    have hnpivot : n.coef.getD q 0x00#8 = 0x01#8 := by
      rw [getD_normalize, gfMul_comm, gfMul_gfInv hp (getD_leadingColumn hq)]
    have hnzero : ∀ b ∈ basis, n.coef.getD b.pivot 0x00#8 = 0x00#8 := fun b hb => by
      rw [getD_normalize, hzero b hb, gfMul_zero]
    have hclear : ∀ b ∈ basis, ∀ j, (clearColumn p q n b).row.coef.getD j 0x00#8 =
        gfAdd (b.row.coef.getD j 0x00#8) (gfMul p (b.row.coef.getD q 0x00#8) (n.coef.getD j 0x00#8)) :=
      fun b hb => getD_clearColumn p q ((h.length b hb).trans hnlength.symm)
    have hkeep : ∀ b ∈ basis, ∀ c ∈ basis, (clearColumn p q n b).row.coef.getD c.pivot 0x00#8 =
        b.row.coef.getD c.pivot 0x00#8 := fun b hb c hc => by
      rw [hclear b hb, hnzero c hc, gfMul_zero]
      exact BitVec.xor_zero
    refine ⟨?_, ?_, ?_⟩
    · simp only [List.forall_mem_append, List.forall_mem_map, List.forall_mem_singleton]
      refine ⟨fun b hb => ?_, hnlength⟩
      exact (length_eliminate p _ ((h.length b hb).trans hnlength.symm)).trans (h.length b hb)
    · simp only [List.forall_mem_append, List.forall_mem_map, List.forall_mem_singleton]
      exact ⟨fun b hb => (hkeep b hb b hb).trans (h.pivotOne b hb), hnpivot⟩
    · refine List.pairwise_append.2 ⟨List.pairwise_map.2 ?_, List.pairwise_singleton .., ?_⟩
      · refine h.pivotsZero.imp_of_mem fun hb hc hbc => ?_
        exact ⟨(hkeep _ hb _ hc).trans hbc.1, (hkeep _ hc _ hb).trans hbc.2⟩
      · simp only [List.forall_mem_map, List.forall_mem_singleton]
        refine fun b hb => ⟨?_, hnzero b hb⟩
        rw [hclear b hb, hnpivot, gfMul_one]
        exact BitVec.xor_self

theorem ReducedForm.extendBasis (hp : p ∈ legalPolys) {basis : List BasisRow} (h : ReducedForm w basis) {r : Row}
    (hr : r.coef.length = w) : ReducedForm w (extendBasis p basis r) :=
  h.addReduced hp (length_reduceRow h.length hr) (h.getD_reduceRow hr)

end Reduce

/-- The coefficient vectors of a basis. -/
def basisCoefs (basis : List BasisRow) : List (List Byte) := basis.map fun b => b.row.coef

namespace FieldModel
variable {p : BitVec 9} {K : Type} [Field K] (φ : FieldModel p K) {w : Nat}

include φ in
theorem add_self (x : K) : x + x = 0 := by
  obtain ⟨a, rfl⟩ := φ.value.surjective x
  rw [← φ.value_gfAdd, gfAdd, BitVec.xor_self, value_zero]

include φ in
/-- The characteristic is 2: what is added twice is gone. -/
theorem add_smul_add_smul (k : K) (x y : Fin w → K) : x + k • y + k • y = x := by
  rw [add_assoc, ← add_smul, φ.add_self, zero_smul, add_zero]

theorem vec_eliminate (f : Byte) {b r : Row} (h : r.coef.length = b.coef.length) :
    φ.vec w (Row.eliminate p f b r).coef = φ.vec w r.coef + φ.value f • φ.vec w b.coef := by
  rw [Row.eliminate, vec_vecAdd _ _ (by simpa using h), vec_vecScale]

theorem vec_eq_zero_iff {c : List Byte} (hc : c.length = w) : φ.vec w c = 0 ↔ ∀ x ∈ c, x = 0x00#8 := by
  constructor
  · intro h
    have := φ.vec_injective hc (List.length_replicate (n := w)) (h.trans (φ.vec_replicate_zero w w).symm)
    exact fun x hx => List.eq_of_mem_replicate (this ▸ hx)
  · intro h
    rw [List.eq_replicate_of_mem h, vec_replicate_zero]

theorem spanOf_le {vs : List (List Byte)} {M : Submodule K (Fin w → K)} :
    φ.spanOf w vs ≤ M ↔ ∀ v ∈ vs, φ.vec w v ∈ M := by
  simp [spanOf, Submodule.span_le, Set.subset_def]

/-- Reducing a row takes an element of the span from it. -/
theorem exists_vec_reduceRow {basis : List BasisRow} (hb : ∀ b ∈ basis, b.row.coef.length = w) {r : Row}
    (hr : r.coef.length = w) : ∃ x ∈ φ.spanOf w (basisCoefs basis),
      φ.vec w (reduceRow p basis r).coef = φ.vec w r.coef + x := by
  induction basis generalizing r with
  | nil => exact ⟨0, zero_mem _, (add_zero _).symm⟩
  | cons b basis ih =>
    have hlen : r.coef.length = b.row.coef.length := hr.trans (hb b List.mem_cons_self).symm
    obtain ⟨x, hx, hreduce⟩ := ih (fun c hc => hb c (List.mem_cons_of_mem b hc))
      ((length_eliminate p (r.coef.getD b.pivot 0x00#8) hlen).trans hr)
    refine ⟨φ.value (r.coef.getD b.pivot 0x00#8) • φ.vec w b.row.coef + x, ?_, ?_⟩
    · rw [basisCoefs, List.map_cons, spanOf_cons, Submodule.mem_span_insert]
      exact ⟨_, x, hx, rfl⟩
    · rw [reduceRow_cons, hreduce, vec_eliminate φ _ hlen, add_assoc]

/-- A row in the span of a reduced form reduces to zero (R100). -/
theorem vec_reduceRow_of_mem {basis : List BasisRow} (h : ReducedForm w basis) {r : Row} (hr : r.coef.length = w)
    (hmem : φ.vec w r.coef ∈ φ.spanOf w (basisCoefs basis)) : φ.vec w (reduceRow p basis r).coef = 0 := by
  induction basis generalizing r with
  | nil =>
    change φ.vec w r.coef = 0
    simpa [spanOf, basisCoefs] using hmem
  | cons b basis ih =>
    have hb := h.length b List.mem_cons_self
    have hlen : r.coef.length = b.row.coef.length := hr.trans hb.symm
    obtain ⟨hzero, -⟩ := List.pairwise_cons.1 h.pivotsZero
    have hone := h.pivotOne b List.mem_cons_self
    have hpivot : b.pivot < w := by
      by_contra hge
      rw [List.getD_eq_default _ _ (by omega)] at hone
      exact absurd hone (by decide)
    rw [basisCoefs, List.map_cons, spanOf_cons, Submodule.mem_span_insert] at hmem
    obtain ⟨k, z, hz, hsum⟩ := hmem
    have hzpivot : z ⟨b.pivot, hpivot⟩ = 0 := by
      have hle : φ.spanOf w (basisCoefs basis) ≤
          LinearMap.ker (LinearMap.proj (R := K) (⟨b.pivot, hpivot⟩ : Fin w)) := by
        rw [spanOf_le, basisCoefs, List.forall_mem_map]
        exact fun c hc => (congrArg φ.value (hzero c hc).2).trans φ.value_zero
      exact hle hz
    have hk : φ.value (r.coef.getD b.pivot 0x00#8) = k := by
      refine (congrFun hsum ⟨b.pivot, hpivot⟩).trans ?_
      rw [Pi.add_apply, hzpivot, Pi.smul_apply, vec, hone, value_one, smul_eq_mul, mul_one, add_zero]
    have hrest : φ.vec w (Row.eliminate p (r.coef.getD b.pivot 0x00#8) b.row r).coef = z := by
      rw [vec_eliminate φ _ hlen, hk, hsum, add_comm (k • _), φ.add_smul_add_smul]
    exact ih h.tail ((length_eliminate p _ hlen).trans hr) (hrest ▸ hz)

theorem spanOf_cons_eq_sup (v : List Byte) (vs : List (List Byte)) :
    φ.spanOf w (v :: vs) = Submodule.span K {φ.vec w v} ⊔ φ.spanOf w vs := by
  rw [spanOf_cons, Submodule.span_insert, spanOf]

/-- Adding a reduced row adds it to the span (R100). -/
theorem spanOf_addReduced (hp : p ∈ legalPolys) {basis : List BasisRow} (hb : ∀ b ∈ basis, b.row.coef.length = w)
    {r : Row} (hr : r.coef.length = w) :
    φ.spanOf w (basisCoefs (addReduced p basis r)) =
      Submodule.span K {φ.vec w r.coef} ⊔ φ.spanOf w (basisCoefs basis) := by
  unfold addReduced
  split
  next hnone =>
    have hzero := (φ.vec_eq_zero_iff hr).2 ((leadingColumn_eq_none_iff r.coef).1 hnone)
    rw [hzero, Submodule.span_zero_singleton, bot_sup_eq]
  next q hq =>
    set n := normalize p q r
    have hn : φ.vec w n.coef = φ.value (gfInv p (r.coef.getD q 0x00#8)) • φ.vec w r.coef := φ.vec_vecScale ..
    have hr' : φ.vec w r.coef = φ.value (r.coef.getD q 0x00#8) • φ.vec w n.coef := by
      rw [hn, smul_smul, ← φ.value_gfMul, gfMul_gfInv hp (getD_leadingColumn hq), value_one, one_smul]
    have hclear : ∀ b ∈ basis, φ.vec w (clearColumn p q n b).row.coef =
        φ.vec w b.row.coef + φ.value (b.row.coef.getD q 0x00#8) • φ.vec w n.coef := fun b hbmem =>
      φ.vec_eliminate _ ((hb b hbmem).trans (hr.symm.trans (length_vecScale ..).symm))
    set S := φ.spanOf w (basisCoefs basis)
    set T := φ.spanOf w (basisCoefs (basis.map (clearColumn p q n) ++ [{ pivot := q, row := n }]))
    have hnT : φ.vec w n.coef ∈ T := φ.vec_mem_spanOf w (by simp [basisCoefs])
    refine le_antisymm (φ.spanOf_le.2 ?_) (sup_le ?_ (φ.spanOf_le.2 ?_))
    · have hnS : φ.vec w n.coef ∈ Submodule.span K {φ.vec w r.coef} ⊔ S :=
        Submodule.mem_sup_left (hn ▸ Submodule.smul_mem _ _ (Submodule.mem_span_singleton_self _))
      simp only [basisCoefs, List.forall_mem_map, List.forall_mem_append, List.forall_mem_singleton]
      refine ⟨fun b hbmem => ?_, hnS⟩
      rw [hclear b hbmem]
      exact add_mem (Submodule.mem_sup_right (φ.vec_mem_spanOf w (List.mem_map_of_mem hbmem)))
        (Submodule.smul_mem _ _ hnS)
    · rw [Submodule.span_singleton_le_iff_mem, hr']
      exact Submodule.smul_mem _ _ hnT
    · simp only [basisCoefs, List.forall_mem_map]
      intro b hbmem
      rw [← φ.add_smul_add_smul (φ.value (b.row.coef.getD q 0x00#8)) (φ.vec w b.row.coef) (φ.vec w n.coef),
        ← hclear b hbmem]
      have hmem : (clearColumn p q n b).row.coef ∈
          basisCoefs (basis.map (clearColumn p q n) ++ [{ pivot := q, row := n }]) := by
        simp only [basisCoefs, List.map_append, List.map_map]
        exact List.mem_append_left _ (List.mem_map_of_mem (f := fun b => (clearColumn p q n b).row.coef) hbmem)
      exact add_mem (φ.vec_mem_spanOf w hmem) (Submodule.smul_mem _ _ hnT)

/-- A vector may be changed by the subspace it is added to. -/
theorem span_add_sup_of_mem {V : Type} [AddCommGroup V] [Module K V] {S : Submodule K V} {x : V} (hx : x ∈ S) (y : V) :
    Submodule.span K {y + x} ⊔ S = Submodule.span K {y} ⊔ S := by
  have hle : ∀ x ∈ S, ∀ y, Submodule.span K {y + x} ⊔ S ≤ Submodule.span K {y} ⊔ S := fun x hx y =>
    sup_le ((Submodule.span_singleton_le_iff_mem _ _).2
      (add_mem (Submodule.mem_sup_left (Submodule.mem_span_singleton_self y)) (Submodule.mem_sup_right hx)))
      le_sup_right
  refine le_antisymm (hle x hx y) ?_
  simpa using hle (-x) (neg_mem hx) (y + x)

theorem spanOf_extendBasis (hp : p ∈ legalPolys) {basis : List BasisRow} (hb : ∀ b ∈ basis, b.row.coef.length = w)
    {r : Row} (hr : r.coef.length = w) :
    φ.spanOf w (basisCoefs (extendBasis p basis r)) =
      Submodule.span K {φ.vec w r.coef} ⊔ φ.spanOf w (basisCoefs basis) := by
  obtain ⟨x, hx, hreduce⟩ := φ.exists_vec_reduceRow hb hr
  rw [extendBasis, φ.spanOf_addReduced hp hb (length_reduceRow hb hr), hreduce,
    span_add_sup_of_mem hx]

/-- The reduced form of a list of equations: its span is theirs (R100). -/
theorem reducedBasis_spec (hp : p ∈ legalPolys) {rows : List Row} (hrows : ∀ r ∈ rows, r.coef.length = w) :
    ReducedForm w (reducedBasis p rows) ∧
      φ.spanOf w (basisCoefs (reducedBasis p rows)) = φ.spanOf w (rows.map Row.coef) := by
  have hfold : ∀ basis, ReducedForm w basis →
      ReducedForm w (rows.foldl (extendBasis p) basis) ∧
        φ.spanOf w (basisCoefs (rows.foldl (extendBasis p) basis)) =
          φ.spanOf w (rows.map Row.coef) ⊔ φ.spanOf w (basisCoefs basis) := by
    induction rows with
    | nil => exact fun basis h => ⟨h, by simp [spanOf]⟩
    | cons r rows ih =>
      intro basis h
      have hr := hrows r List.mem_cons_self
      obtain ⟨hform, hspan⟩ := ih (fun q hq => hrows q (List.mem_cons_of_mem r hq)) _ (h.extendBasis hp hr)
      refine ⟨hform, hspan.trans ?_⟩
      rw [φ.spanOf_extendBasis hp h.length hr, List.map_cons, spanOf_cons_eq_sup]
      ac_rfl
  obtain ⟨hform, hspan⟩ := hfold [] ⟨fun _ hb => (nomatch hb), fun _ hb => (nomatch hb), List.Pairwise.nil⟩
  refine ⟨hform, hspan.trans ?_⟩
  simp [spanOf, basisCoefs]

/-- The elimination test in the terms of the vector space. -/
theorem inSpan_eq_true_iff_mem (hp : p ∈ legalPolys) {vs : List (List Byte)} {c : List Byte}
    (hvs : ∀ v ∈ vs, v.length = w) (hc : c.length = w) : inSpan p vs c = true ↔ φ.vec w c ∈ φ.spanOf w vs := by
  obtain ⟨hform, hspan⟩ := φ.reducedBasis_spec hp (rows := vs.map fun v => { coef := v, payload := [] })
    (by simpa using hvs)
  simp only [List.map_map, Function.comp_def, List.map_id'] at hspan
  rw [inSpan, Option.isNone_iff_eq_none, leadingColumn_eq_none_iff,
    ← φ.vec_eq_zero_iff (length_reduceRow hform.length (r := { coef := c, payload := [] }) hc), ← hspan]
  obtain ⟨x, hx, hreduce⟩ := φ.exists_vec_reduceRow hform.length (r := { coef := c, payload := [] }) hc
  constructor
  · intro hzero
    rw [eq_neg_of_add_eq_zero_left (hreduce.symm.trans hzero)]
    exact neg_mem hx
  · exact φ.vec_reduceRow_of_mem hform (r := { coef := c, payload := [] }) hc

end FieldModel

/-- R92, R100: the elimination test decides the span. -/
theorem inSpan_eq_true_iff {p : BitVec 9} (hp : p ∈ legalPolys) {w : Nat} {vs : List (List Byte)} {c : List Byte}
    (hvs : ∀ v ∈ vs, v.length = w) (hc : c.length = w) : inSpan p vs c = true ↔ InSpan p w vs c := by
  obtain ⟨K, field, ⟨φ⟩⟩ := exists_fieldModel hp
  rw [φ.inSpan_eq_true_iff_mem hp hvs hc, φ.inSpan_iff hvs hc]

end Sys2Proof.Machine
end

section
/-! PROOFS. Independent rows: what SWID's padding and SINS do to them, how many there are, and the invertible matrix of a
full solver (R40). -/

namespace Sys2Proof.Machine

/-! ### Padding -/

/-- Zeros appended at the high end (R97). -/
def padTo (w n : Nat) (v : List Byte) : List Byte := v ++ List.replicate (n - w) 0x00#8

theorem vecAdd_padTo {u v : List Byte} (h : u.length = v.length) (w n : Nat) :
    vecAdd (padTo w n u) (padTo w n v) = padTo w n (vecAdd u v) := by
  rw [padTo, padTo, vecAdd, List.zipWith_append h, List.zipWith_replicate', padTo]
  rfl

theorem vecScale_padTo (p : BitVec 9) (k : Byte) (w n : Nat) (v : List Byte) :
    vecScale p k (padTo w n v) = padTo w n (vecScale p k v) := by
  simp [vecScale, padTo, gfMul_zero]

/-- A combination of padded vectors is the padded combination. -/
theorem linComb_map_padTo (p : BitVec 9) {w n : Nat} (hle : w ≤ n) (ks : List Byte) {vs : List (List Byte)}
    (hvs : ∀ v ∈ vs, v.length = w) : linComb p n ks (vs.map (padTo w n)) = padTo w n (linComb p w ks vs) := by
  have hzeros : List.replicate n 0x00#8 = padTo w n (List.replicate w 0x00#8) := by
    rw [padTo, List.replicate_append_replicate, Nat.add_sub_cancel' hle]
  induction vs generalizing ks with
  | nil => simpa [linComb] using hzeros
  | cons v vs ih =>
    cases ks with
    | nil => simpa [linComb] using hzeros
    | cons k ks =>
      have htail : ∀ u ∈ vs, u.length = w := fun u hu => hvs u (List.mem_cons_of_mem v hu)
      have hlen : (vecScale p k v).length = (linComb p w ks vs).length := by
        rw [length_vecScale, hvs v List.mem_cons_self, length_linComb p ks htail]
      rw [List.map_cons, linComb_cons, ih ks htail, linComb_cons, vecScale_padTo, vecAdd_padTo hlen]

theorem inSpan_map_padTo_iff (p : BitVec 9) {w n : Nat} (hle : w ≤ n) {vs : List (List Byte)}
    (hvs : ∀ v ∈ vs, v.length = w) (c : List Byte) :
    InSpan p n (vs.map (padTo w n)) (padTo w n c) ↔ InSpan p w vs c := by
  unfold InSpan
  simp only [List.length_map, linComb_map_padTo p hle _ hvs, padTo, List.append_left_inj]

/-- Padding keeps rows independent (R97). -/
theorem independent_map_padTo (p : BitVec 9) {w n : Nat} (hle : w ≤ n) {vs : List (List Byte)}
    (hvs : ∀ v ∈ vs, v.length = w) (h : Independent p w vs) : Independent p n (vs.map (padTo w n)) := by
  intro k hk hspan
  rw [List.length_map] at hk
  rw [List.eraseIdx_map, List.getElem_map,
    inSpan_map_padTo_iff p hle (fun v hv => hvs v (List.mem_of_mem_eraseIdx hv))] at hspan
  exact h k hk hspan

/-! ### Independence in the vector space -/

namespace FieldModel
variable {p : BitVec 9} {K : Type} [Field K] (φ : FieldModel p K) {w : Nat} {vs : List (List Byte)}

/-- R92's independence is linear independence. -/
theorem independent_iff (hvs : ∀ v ∈ vs, v.length = w) :
    Independent p w vs ↔ LinearIndependent K fun j : Fin vs.length => φ.vec w vs[j] := by
  rw [linearIndependent_iff_notMem_span]
  have hspan (k : Fin vs.length) : Submodule.span K ((fun j : Fin vs.length => φ.vec w vs[j]) '' (Set.univ \ {k})) =
      φ.spanOf w (vs.eraseIdx k) := by
    rw [spanOf]
    congr 1
    ext x
    simp only [Set.mem_image, Set.mem_sdiff, Set.mem_univ, true_and, Set.mem_singleton_iff, Set.mem_ofPred_eq,
      List.mem_eraseIdx_iff_getElem]
    constructor
    · rintro ⟨j, hj, rfl⟩
      exact ⟨_, ⟨j, j.2, fun h => hj (Fin.ext h), rfl⟩, rfl⟩
    · rintro ⟨-, ⟨j, hj, hne, rfl⟩, rfl⟩
      exact ⟨⟨j, hj⟩, fun h => hne (congrArg Fin.val h), rfl⟩
  have hmem (k : Fin vs.length) : InSpan p w (vs.eraseIdx k) vs[k] ↔ φ.vec w vs[k] ∈ φ.spanOf w (vs.eraseIdx k) :=
    φ.inSpan_iff (fun v hv => hvs v (List.mem_of_mem_eraseIdx hv)) (hvs _ (List.getElem_mem _))
  constructor
  · intro h k
    rw [hspan k, ← hmem k]
    exact h k k.2
  · intro h k hk
    exact (hmem ⟨k, hk⟩).not.2 (hspan ⟨k, hk⟩ ▸ h ⟨k, hk⟩)

include φ in
/-- No more than `w` vectors of `w` columns are independent. -/
theorem length_le_of_independent (hvs : ∀ v ∈ vs, v.length = w) (h : Independent p w vs) : vs.length ≤ w := by
  simpa using ((φ.independent_iff hvs).1 h).fintype_card_le_finrank

include φ in
/-- A vector outside the span of independent ones makes with them a longer independent list. -/
theorem independent_append (hvs : ∀ v ∈ vs, v.length = w) {c : List Byte} (hc : c.length = w)
    (h : Independent p w vs) (hspan : ¬ InSpan p w vs c) : Independent p w (vs ++ [c]) := by
  have hall : ∀ v ∈ vs ++ [c], v.length = w := by
    simpa only [List.forall_mem_append, List.forall_mem_singleton] using ⟨hvs, hc⟩
  rw [φ.inSpan_iff hvs hc] at hspan
  intro k hk
  rw [φ.inSpan_iff (fun v hv => hall v (List.mem_of_mem_eraseIdx hv)) (hall _ (List.getElem_mem hk))]
  rcases Nat.lt_or_ge k vs.length with hlt | hge
  · have hself := h k hlt
    rw [φ.inSpan_iff (fun v hv => hvs v (List.mem_of_mem_eraseIdx hv)) (hvs _ (List.getElem_mem hlt))] at hself
    rw [List.getElem_append_left hlt, List.eraseIdx_append_of_lt_length hlt]
    intro hmem
    have hcons : φ.vec w vs[k] ∈ φ.spanOf w (c :: vs.eraseIdx k) := φ.spanOf_mono (by simp) hmem
    rw [spanOf_cons] at hcons
    have hexchange : φ.vec w c ∈ φ.spanOf w (vs[k] :: vs.eraseIdx k) :=
      φ.spanOf_cons w .. ▸ mem_span_insert_exchange hcons hself
    refine hspan (φ.spanOf_mono (fun v hv => ?_) hexchange)
    rcases List.mem_cons.1 hv with rfl | hv
    · exact List.getElem_mem hlt
    · exact List.mem_of_mem_eraseIdx hv
  · obtain rfl : k = vs.length := by simp at hk; omega
    rw [List.eraseIdx_append_of_length_le le_rfl]
    simpa using hspan

/-- The model's product of a row with the unknowns is the product of the vectors (R95). -/
theorem value_dot {c x : List Byte} (hc : c.length = w) (hx : x.length = w) :
    φ.value (dot p c x) = φ.vec w c ⬝ᵥ φ.vec w x := by
  subst hc
  induction c generalizing x with
  | nil => simp [dot, dotProduct]
  | cons a c ih =>
    obtain ⟨b, x, rfl⟩ := List.exists_cons_of_length_eq_add_one hx
    have hrest := ih (x := x) (by simpa using hx)
    rw [show dot p (a :: c) (b :: x) = gfAdd (gfMul p a b) (dot p c x) from rfl, φ.value_gfAdd, φ.value_gfMul, hrest,
      dotProduct, dotProduct]
    exact (Fin.sum_univ_succ (fun j => φ.vec (c.length + 1) (a :: c) j * φ.vec (c.length + 1) (b :: x) j)).symm

theorem exists_vec_eq (x : Fin w → K) : ∃ v : List Byte, v.length = w ∧ φ.vec w v = x :=
  ⟨List.ofFn fun j => φ.value.symm (x j), List.length_ofFn, by ext j; simp [vec]⟩

include φ in
/-- R40 I4: as many independent rows as columns are an invertible matrix. -/
theorem invertible_of_independent (hvs : ∀ v ∈ vs, v.length = w) (hlen : vs.length = w) (h : Independent p w vs) :
    Invertible p w vs := by
  subst hlen
  set w := vs.length
  set M : Matrix (Fin w) (Fin w) K := Matrix.of fun j => φ.vec w vs[j]
  have hunit : IsUnit M := Matrix.linearIndependent_rows_iff_isUnit.1 ((φ.independent_iff hvs).1 h)
  have hinj : Function.Injective M.mulVec := Matrix.mulVec_injective_iff_isUnit.2 hunit
  have hsurj : Function.Surjective M.mulVec := Matrix.mulVec_surjective_iff_isUnit.2 hunit
  have hproduct {x b : List Byte} (hx : x.length = w) (hb : b.length = w) :
      vs.map (fun c => dot p c x) = b ↔ M.mulVec (φ.vec w x) = φ.vec w b := by
    have hrow (j : Fin w) : M.mulVec (φ.vec w x) j = φ.value (dot p vs[j] x) :=
      (φ.value_dot (hvs _ (List.getElem_mem _)) hx).symm
    have hvec : φ.vec w (vs.map fun c => dot p c x) = M.mulVec (φ.vec w x) := by
      ext j
      rw [hrow, vec, List.getD_eq_getElem _ _ (by rw [List.length_map]; exact j.2), List.getElem_map]
      rfl
    rw [← hvec]
    exact ⟨fun h => congrArg _ h, φ.vec_injective (List.length_map _) hb⟩
  intro b hb
  obtain ⟨x, hx⟩ := hsurj (φ.vec w b)
  obtain ⟨x, hxlen, rfl⟩ := φ.exists_vec_eq x
  refine ⟨x, ⟨hxlen, (hproduct hxlen hb).2 hx⟩, fun y ⟨hylen, hy⟩ => φ.vec_injective hylen hxlen (hinj ?_)⟩
  rw [(hproduct hylen hb).1 hy, hx]

end FieldModel

end Sys2Proof.Machine
end

section
/-! PROOFS. The solver invariants I1 to I4 (R40), kept by every step. -/

namespace Sys2Proof.Machine

/-- The coefficient vectors of a solver, independent (R40 I2). -/
def Solver.RowsIndependent (p : BitVec 9) (sv : Solver) : Prop := Independent p sv.width (sv.rows.map Row.coef)

theorem rowsIndependent_clear (p : BitVec 9) : Solver.clear.RowsIndependent p :=
  fun _ hk => absurd hk (Nat.not_lt_zero _)

theorem Solver.RowsIndependent.grow {p : BitVec 9} {sv : Solver} {n : Nat} (h : sv.RowsIndependent p)
    (hcoef : ∀ r ∈ sv.rows, r.coef.length = sv.width) (hle : sv.width ≤ n) : (sv.grow n).RowsIndependent p := by
  have hpad : (sv.grow n).rows.map Row.coef = (sv.rows.map Row.coef).map (padTo sv.width n) := by
    simp only [Solver.grow, List.map_map]
    rfl
  unfold Solver.RowsIndependent
  rw [hpad]
  exact independent_map_padTo p hle (List.forall_mem_map.2 hcoef) h

/-- What SINS appends is outside the span of the rows it finds (R98). -/
theorem Solver.RowsIndependent.insertRow {p : BitVec 9} (hp : p ∈ legalPolys) {sv : Solver} (h : sv.RowsIndependent p)
    (hcoef : ∀ r ∈ sv.rows, r.coef.length = sv.width) (n : Nat) {r : Row} (hr : r.coef.length = sv.width) :
    (sv.insertRow p n r).RowsIndependent p := by
  unfold Solver.insertRow
  split
  · exact h
  next hspan =>
    have hrows : ∀ v ∈ sv.rows.map Row.coef, v.length = sv.width := List.forall_mem_map.2 hcoef
    rw [inSpan_eq_true_iff hp hrows hr] at hspan
    obtain ⟨K, field, ⟨φ⟩⟩ := exists_fieldModel hp
    unfold Solver.RowsIndependent
    rw [List.map_append]
    exact φ.independent_append hrows hr h hspan

theorem Solver.full_iff (sv : Solver) : sv.full = true ↔ 0 < sv.width ∧ sv.rows.length = sv.width := by
  simp [Solver.full]

/-- Beside the shape of the state, I1 to I4 say no more than I2: independent rows are at most as many as columns, and as
many make the matrix invertible. -/
theorem State.Inv.solverInv {s : State} (h : s.Inv) (hind : s.solver.RowsIndependent s.cfg.fieldPoly) :
    s.SolverInv := by
  obtain ⟨K, field, ⟨φ⟩⟩ := exists_fieldModel h.cfgLegal.1
  have hrows : ∀ v ∈ s.solver.rows.map Row.coef, v.length = s.solver.width := List.forall_mem_map.2 h.coefLength
  have hrank := φ.length_le_of_independent hrows hind
  rw [List.length_map] at hrank
  refine ⟨⟨hrank, h.widthBound⟩, hind, ⟨h.payloadLength, h.slenBound⟩, fun hfull => ?_⟩
  obtain ⟨-, hsquare⟩ := (Solver.full_iff s.solver).1 hfull
  exact φ.invertible_of_independent hrows (by rw [List.length_map, hsquare]) hind

/-- What a step can do to the solver: leave it, clear it (R96, R99, R119), grow it (R97) or insert a row (R98). -/
inductive SolverMove (p : BitVec 9) (sv : Solver) : Solver → Prop
  | keep : SolverMove p sv sv
  | clear : SolverMove p sv Solver.clear
  | grow {n : Nat} (hle : sv.width ≤ n) : SolverMove p sv (sv.grow n)
  | insert {n : Nat} {r : Row} (hr : r.coef.length = sv.width) : SolverMove p sv (sv.insertRow p n r)

theorem SolverMove.rowsIndependent {p : BitVec 9} (hp : p ∈ legalPolys) {sv sv' : Solver} (hmove : SolverMove p sv sv')
    (hcoef : ∀ r ∈ sv.rows, r.coef.length = sv.width) (h : sv.RowsIndependent p) : sv'.RowsIndependent p := by
  cases hmove with
  | keep => exact h
  | clear => exact rowsIndependent_clear p
  | grow hle => exact h.grow hcoef hle
  | insert hr => exact h.insertRow hp hcoef _ hr

theorem EngineMove.solverMove {s t : State} (hmove : EngineMove s t) (h : s.Inv) :
    SolverMove s.cfg.fieldPoly s.solver t.solver := by
  cases hmove with
  | idle => exact .keep
  | illegal => exact .keep
  | access => exact .keep
  | fail => exact .keep
  | @succeed f i hf hd herr =>
    cases i with
    | add a b => exact .keep
    | mul a b => exact .keep
    | div a b => exact .keep
    | inv a => exact .keep
    | mac c => exact .keep
    | sclr => exact .clear
    | swid n => exact .grow ((errorOf_swid_eq_none_iff n s f).1 herr).1
    | sins =>
      exact .insert (by simp [candidate, h.length_fetched hf hd herr])
    | ssol => exact .clear

theorem TurnMove.solverMove {turn : Turn} {s t : State} (hmove : TurnMove s turn t) (h : s.Inv) :
    SolverMove s.cfg.fieldPoly s.solver t.solver := by
  cases hmove with
  | read => exact .keep
  | write => exact (writeOffset_frame s _ _).2 ▸ .keep
  | store => exact .keep
  | unit hmove => exact hmove.solverMove h
  | rst level =>
    rcases (setRst_frame s level).2 with hsame | hclear
    · exact hsame ▸ .keep
    · exact hclear ▸ .clear

theorem step_solverMove {s t : State} (h : s.Inv) (hstep : step s = .next t) :
    SolverMove s.cfg.fieldPoly s.solver t.solver := by
  rcases step_move hstep with ⟨-, hmove⟩ | ⟨turn, rest, -, hmove⟩
  · exact hmove.solverMove h
  · exact hmove.solverMove (h.setTurns rest)

/-- Settles O60: with the shape of the state (O59) the four invariants come to the independence of the rows, which every
move of the solver keeps. -/
theorem stepKeepsSolverInv : Obligations.StepKeepsSolverInv := by
  refine ⟨fun c _ => ?_, fun s t h hsolver hstep => ?_⟩
  · exact {
      rankBound := ⟨le_rfl, Nat.zero_le _⟩
      independent := rowsIndependent_clear _
      payloads := ⟨fun _ hr => (nomatch hr), Nat.zero_le _⟩
      invertible := fun hfull => absurd hfull Bool.false_ne_true }
  · refine (stepKeepsInv s t h hstep).solverInv ?_
    rw [step_cfg hstep]
    exact (step_solverMove h hstep).rowsIndependent h.cfgLegal.1 h.coefLength hsolver.independent

end Sys2Proof.Machine
end

section
/-! PROOFS. The register block: reads, writes, and the bits of STATUS and CTRL (10_state.md R15 to R43). -/

namespace Sys2Proof.Machine

/-! ### Host accesses to a register -/

/-- A 32-bit read at a register's offset returns its value and has no other effect (R42). -/
theorem step_busRead_reg {s : State} {r : Reg} {rest : List Turn} (hrst : s.rst = false)
    (hturns : s.turns = .busRead (s.cfg.gfuBase + r.offset) 4 :: rest) :
    step s = .next { s with turns := rest, readData := s.readReg r } := by
  have hok : (s.setTurns rest).busRefusal (s.cfg.gfuBase + r.offset) 4 = none := busRefusal_reg (s.setTurns rest) r hrst
  rw [step_cons s _ rest hturns, takeTurn, busRead, hok, State.setTurns_cfg, Nat.add_sub_cancel_left, readOffset_reg]
  cases r <;> rfl

/-- A 32-bit write at a register's offset is a write to the register. -/
theorem step_busWrite_reg {s : State} {r : Reg} {v : Word} {rest : List Turn} (hrst : s.rst = false)
    (hturns : s.turns = .busWrite (s.cfg.gfuBase + r.offset) 4 v :: rest) :
    step s = .next ((s.setTurns rest).writeReg r v) := by
  have hok : (s.setTurns rest).busRefusal (s.cfg.gfuBase + r.offset) 4 = none := busRefusal_reg (s.setTurns rest) r hrst
  rw [step_cons s _ rest hturns, takeTurn, busWrite, hok, State.setTurns_cfg, Nat.add_sub_cancel_left, writeOffset_reg]

/-- No register is at a reserved offset (R41). -/
theorem regAt_reserved {off : Nat} (h : 0x40 ≤ off) : regAt off = none := by
  refine List.find?_eq_none.2 fun r _ => ?_
  have hr : r.offset < 0x40 := by cases r <;> decide
  simp
  omega

/-! ### The bits of STATUS and CTRL -/

section Bits
variable (s : State)

/-- STATUS bit by bit (R21 to R27). -/
theorem statusWord_getLsbD (k : Nat) : s.statusWord.getLsbD k =
    if k = 0 then s.busy else if k = 1 then s.done else if k = 2 then s.err else if k = 3 then s.ovr
    else if k = 4 then s.solver.dep else if k = 5 then s.solver.full else false := by
  simp only [State.statusWord, BitVec.getLsbD_append, BitVec.getLsbD_ofBool]
  match k with
  | 0 | 1 | 2 | 3 | 4 | 5 => simp
  | k + 6 => simp

/-- Bits 31:6 of STATUS read 0 (R27). -/
theorem statusWord_reserved {k : Nat} (h : 6 ≤ k) : s.statusWord.getLsbD k = false := by
  obtain ⟨j, rfl⟩ := Nat.exists_eq_add_of_le' h
  simp [statusWord_getLsbD]

/-- CTRL bit by bit (R20). -/
theorem ctrlWord_getLsbD (k : Nat) : s.ctrlWord.getLsbD k =
    if k = 0 then s.doneIe else if k = 1 then s.errIe else false := by
  simp only [State.ctrlWord, BitVec.getLsbD_append, BitVec.getLsbD_ofBool]
  match k with
  | 0 | 1 => simp
  | k + 2 => simp

@[simp] theorem busy_writeStatus (v : Word) : (s.writeStatus v).busy = s.busy := rfl

/-- A write to STATUS looks at bits 3:1 of the value only (R27). -/
theorem writeStatus_and_mask (v : Word) : s.writeStatus (v &&& 0x0000000E) = s.writeStatus v := by
  simp [State.writeStatus]

theorem writeStatus_zero : s.writeStatus 0#32 = s := by
  simp [State.writeStatus]

/-- A write to CTRL looks at bits 1:0 of the value only (R20). -/
theorem writeCtrl_and_mask (v : Word) : s.writeCtrl (v &&& 0x00000003) = s.writeCtrl v := by
  simp [State.writeCtrl]

/-- After a write CTRL reads the value's bits 1:0 (R20). -/
theorem ctrlWord_writeCtrl (v : Word) : (s.writeCtrl v).ctrlWord = v &&& 0x00000003 := by
  refine BitVec.eq_of_getLsbD_eq fun k hk => ?_
  have hmask : (0x00000003 : Word).getLsbD k = decide (k = 0 ∨ k = 1) := by
    revert hk
    revert k
    decide
  rw [ctrlWord_getLsbD, BitVec.getLsbD_and, hmask]
  split
  next hzero => simp [hzero]
  next hzero =>
    split
    next hone => simp [hone]
    next hone => simp [hzero, hone]

/-- A zero-extended value has no bit beyond its width. -/
theorem getLsbD_setWidth_of_le {w n k : Nat} (x : BitVec w) (h : w ≤ k) : (x.setWidth n).getLsbD k = false := by
  rw [BitVec.getLsbD_setWidth, BitVec.getLsbD_of_ge x k h, Bool.and_false]

end Bits

/-- A number of 16 bits, in a register of 32 (R18, R35, R36). -/
theorem toNat_setWidth_ofNat {n : Nat} (h : n ≤ 65535) : ((BitVec.ofNat 16 n).setWidth 32).toNat = n := by
  rw [BitVec.toNat_setWidth_of_le (by decide), BitVec.toNat_ofNat, Nat.mod_eq_of_lt (by omega)]

/-! ### The obligations -/

/-- Settles O38: CMD is a register like the others, and a write to it is an issue or an overrun. -/
theorem cmdWriteIssues : Obligations.CmdWriteIssues := by
  refine ⟨fun s rest hrst hturns => step_busRead_reg (r := .cmd) hrst hturns, fun s w rest hrst hturns => ?_⟩
  have hstep : step s = .next ((s.setTurns rest).writeReg .cmd w) := step_busWrite_reg (r := .cmd) hrst hturns
  refine ⟨fun hidle => ?_, fun f hf => ?_⟩
  · rw [hstep, State.writeReg, unlessBusy_idle _ _ ((s.setTurns rest).busy_none hidle)]
    rfl
  · rw [hstep, State.writeReg, unlessBusy_busy _ _ ((s.setTurns rest).busy_some f hf)]
    rfl

/-- A write to an operand register of an idle unit is read back, and changes nothing else (R31 to R34). -/
theorem writeReg_operand {s : State} {r : Reg} (hr : r ∈ [Reg.dst, .src, .coef, .len]) (hidle : s.inflight = none)
    (v : Word) :
    (s.writeReg r v).readReg r = v ∧ (∀ q, q ≠ r → (s.writeReg r v).readReg q = s.readReg q) ∧
      (s.writeReg r v).mem = s.mem ∧ (s.writeReg r v).solver = s.solver ∧ (s.writeReg r v).inflight = none := by
  have hbusy := s.busy_none hidle
  simp only [List.mem_cons, List.not_mem_nil, or_false] at hr
  rcases hr with rfl | rfl | rfl | rfl
  all_goals
    rw [State.writeReg, unlessBusy_idle _ _ hbusy]
    refine ⟨rfl, fun q hq => ?_, rfl, rfl, hidle⟩
    cases q <;> simp [State.readReg, State.ctrlWord, State.statusWord, State.busy] at hq ⊢

/-- Settles O39: the write to an operand register of the idle unit, less the turn taken. -/
theorem operandRegistersReadBack : Obligations.OperandRegistersReadBack := by
  intro s r v rest hr hrst hidle hturns
  obtain ⟨hself, hothers, hmem, hsolver, hinflight⟩ := writeReg_operand (s := s.setTurns rest) hr hidle v
  refine ⟨_, step_busWrite_reg hrst hturns, hself, fun q hq => (hothers q hq).trans ?_, hmem, hsolver, hinflight⟩
  cases q <;> rfl

/-- The registers of R42 that no write changes. -/
theorem writeReg_readOnly {r : Reg}
    (hr : r ∈ [Reg.id, .poly, .maxcols, .maxsym, .errcode, .result, .width, .rank, .slen]) (s : State) (v : Word) : s.writeReg r v = s := by
  simp only [List.mem_cons, List.not_mem_nil, or_false] at hr
  rcases hr with rfl | rfl | rfl | rfl | rfl | rfl | rfl | rfl | rfl <;> rfl

/-- Settles O41: a write to STATUS with 0 in bits 3:1 is a write of 0. -/
theorem readOnlyRegisters : Obligations.ReadOnlyRegisters := by
  refine ⟨fun s r rest hrst hturns => step_busRead_reg hrst hturns, fun s r v rest hrst hr hturns => ?_,
    fun s v hv => ?_⟩
  · rw [step_busWrite_reg hrst hturns, writeReg_readOnly hr]
    rfl
  · rw [State.writeReg, ← writeStatus_and_mask, hv, writeStatus_zero]

/-- Settles O42: no register is at such an offset, the reads are zero-extended, and writes to CTRL and STATUS look at
their own bits only. -/
theorem reservedBitsAndOffsets : Obligations.ReservedBitsAndOffsets := by
  refine ⟨fun s off v hoff _ _ => ?_, fun s k => ?_, fun s v => ?_⟩
  · have hnone := regAt_reserved hoff
    simp [State.readOffset, State.writeOffset, hnone]
  · refine ⟨getLsbD_setWidth_of_le _, getLsbD_setWidth_of_le _, fun hk => ?_, statusWord_reserved s,
      getLsbD_setWidth_of_le _, getLsbD_setWidth_of_le _, getLsbD_setWidth_of_le _, getLsbD_setWidth_of_le _⟩
    rw [State.readReg, ctrlWord_getLsbD, if_neg (by omega), if_neg (by omega)]
  · refine ⟨(writeCtrl_and_mask s v).symm, (writeStatus_and_mask s v).symm, fun r hr => writeReg_readOnly ?_ s v⟩
    revert r
    decide

/-- Settles O44: the four registers are views of the parameters, which no step changes. -/
theorem configurationRegisters : Obligations.ConfigurationRegisters := by
  refine ⟨fun s hlegal => ?_, fun s v r hr => writeReg_readOnly ?_ s v, fun s t hstep => ?_⟩
  · obtain ⟨hpoly, ⟨-, hcols⟩, ⟨-, hsym⟩, -, -⟩ := hlegal
    refine ⟨rfl, BitVec.toNat_setWidth_of_le (by decide), ?_, toNat_setWidth_ofNat hcols, ?_⟩
    · rw [State.readReg, BitVec.getLsbD_setWidth, legalPolys_getLsbD_eight hpoly]
      rfl
    · rw [State.readReg, BitVec.toNat_ofNat, Nat.mod_eq_of_lt (by omega)]
  · revert r
    decide
  · have hcfg := step_cfg hstep
    refine ⟨hcfg, fun r hr => ?_⟩
    simp only [List.mem_cons, List.not_mem_nil, or_false] at hr
    rcases hr with rfl | rfl | rfl | rfl <;> simp only [State.readReg, hcfg]

/-- CTRL bears on no effect of a command (R20). -/
theorem commandEffects_writeCtrl (i : Instr) (s : State) (v : Word) :
    commandEffects i (s.writeCtrl v) = (commandEffects i s).writeCtrl v := by
  cases i <;> rfl

/-- CTRL bears on no command's result (R20). -/
theorem exec_writeCtrl {i : Instr} {s t : State} (h : exec i s = .next t) (v : Word) :
    exec i (s.writeCtrl v) = .next (t.writeCtrl v) := by
  have herr : errorOf i (s.writeCtrl v) ((s.writeCtrl v).flight i) = errorOf i s (s.flight i) :=
    errorOf_congr i rfl rfl rfl rfl rfl rfl
  rw [exec_eq_conclude, herr, commandEffects_writeCtrl]
  rcases exec_next h with ⟨e, hfail, rfl⟩ | ⟨hok, rfl⟩
  · rw [hfail]
    rfl
  · rw [hok]
    rfl

/-- Settles O45: no check and no effect of a command looks at CTRL. -/
theorem ctrlOnlyEnablesIrq : Obligations.CtrlOnlyEnablesIrq := by
  refine ⟨fun s v rest hrst hturns => ?_, fun s => ?_, fun c => ?_, fun i s t v h => exec_writeCtrl h v⟩
  · exact ⟨_, step_busWrite_reg (r := .ctrl) hrst hturns, rfl, ctrlWord_writeCtrl _ v⟩
  · simp only [State.irq, State.readReg, ctrlWord_getLsbD]
    simp
  · simp [State.readReg, State.ctrlWord]

/-- Settles O46, bit by bit. -/
theorem statusWriteOneToClear : Obligations.StatusWriteOneToClear := by
  refine ⟨fun s rest hrst hturns => step_busRead_reg (r := .status) hrst hturns, fun s v => ⟨fun k => ?_,
    fun k => statusWord_reserved s, _, _, _, rfl⟩⟩
  simp only [State.readReg, State.writeReg, statusWord_getLsbD]
  match k with
  | 0 | 1 | 2 | 3 | 4 | 5 => simp
  | k + 6 => simp

/-- Settles O48: the bounds of the invariant make the three numbers fit their registers. -/
theorem solverViewRegisters : Obligations.SolverViewRegisters := by
  refine ⟨fun c r hr => ?_, fun s h hrank => ?_⟩
  · simp only [List.mem_cons, List.not_mem_nil, or_false] at hr
    rcases hr with rfl | rfl | rfl <;> rfl
  · obtain ⟨-, ⟨-, hcols⟩, ⟨-, hsym⟩, -, -⟩ := h.cfgLegal
    have hwidth := h.widthBound
    have hslen := h.slenBound
    refine ⟨toNat_setWidth_ofNat (by omega), hwidth, hcols, toNat_setWidth_ofNat (by omega), fun hrows => ?_,
      fun hrows => ?_, fun r hr v => writeReg_readOnly ?_ s v⟩
    · rw [State.readReg, Solver.slenView, if_neg hrows.ne', BitVec.toNat_ofNat, Nat.mod_eq_of_lt (by omega)]
    · rw [State.readReg, Solver.slenView, if_pos hrows]
      rfl
    · revert r
      decide

end Sys2Proof.Machine
end

section
/-! PROOFS. STATUS.ERR: every way it rises and falls (10_state.md R23). -/

namespace Sys2Proof.Machine

/-- The code of a check is no success (R104). -/
theorem firstError_mem {l : List (Bool × ErrCode)} {e : ErrCode} (h : firstError l = some e) : e ∈ l.map Prod.snd := by
  induction l with
  | nil => cases h
  | cons c l ih =>
    obtain ⟨applies, code⟩ := c
    cases applies with
    | true => exact Option.some.inj h ▸ List.mem_cons_self
    | false => exact List.mem_cons_of_mem _ (ih h)

theorem errorOf_ne_noError {i : Instr} {s : State} {f : InFlight} {e : ErrCode} (h : errorOf i s f = some e) :
    e ≠ .noError := by
  rintro rfl
  cases i with
  | add => cases h
  | mul => cases h
  | div => exact absurd (firstError_mem h) (by simp)
  | inv => exact absurd (firstError_mem h) (by simp)
  | mac => exact absurd (firstError_mem h) (by simp)
  | sclr => cases h
  | swid => exact absurd (firstError_mem h) (by simp)
  | sins => exact absurd (firstError_mem h) (by simp)
  | ssol => exact absurd (firstError_mem h) (by simp)

/-- Everything a step from `s` to `t` can mean for ERR (R23). -/
inductive ErrMove (s t : State) : Prop
  /-- ERR stays, and a command in flight stays so. -/
  | keep (herr : t.err = s.err) (hbusy : t.inflight = none → s.inflight = none)
  /-- A completion in error (R106). -/
  | fail (hbusy : s.inflight.isSome = true) (hidle : t.inflight = none) (hdone : t.done = true) (herr : t.err = true)
      (hcode : t.errcode ≠ .noError)
  /-- A successful completion (R107). -/
  | succeed (herr : t.err = s.err) (hcode : t.errcode = .noError)
  /-- The host writes 1 to the bit (R23). -/
  | acknowledge {v : Word} {rest : List Turn} (hturns : s.turns = .busWrite (s.cfg.gfuBase + 0x14) 4 v :: rest)
      (hbit : v.getLsbD 2 = true) (herr : t.err = false) (hbusy : t.inflight = none → s.inflight = none)
  /-- `rst` is driven, and the unit reset (R119). -/
  | reset {level : Bool} {rest : List Turn} (hturns : s.turns = .rst level :: rest) (herr : t.err = false)
      (hcode : t.errcode = .noError)

/-- What the unit itself does means for ERR; `u` is `s` less the turn taken. -/
theorem EngineMove.errMove {s u t : State} (hmove : EngineMove u t) (herr : u.err = s.err)
    (hflight : u.inflight = s.inflight) : ErrMove s t := by
  cases hmove with
  | idle => exact .keep herr hflight.symm.trans
  | illegal hf _ => exact .fail (by simp [← hflight, hf]) rfl rfl rfl ErrCode.noConfusion
  | access => exact .keep herr fun hnone => nomatch hnone
  | fail hf _ hcode => exact .fail (by simp [← hflight, hf]) rfl rfl rfl (errorOf_ne_noError hcode)
  | @succeed f i =>
    have hsame : (commandEffects i u).err = u.err := by cases i <;> rfl
    exact .succeed (hsame.trans herr) rfl

/-- A register write leaves a command in flight there. -/
theorem writeOffset_idle {s : State} {off : Nat} {v : Word} (h : (s.writeOffset off v).inflight = none) :
    s.inflight = none := by
  rcases writeOffset_cases s off v with
    hw | hw | hw | ⟨-, hw⟩ | ⟨-, hw | hw | hw | hw | hw⟩ <;> rw [hw] at h
  case inr.inr.inr.inr.inl => cases h
  all_goals exact h

theorem writeReg_err {s : State} {r : Reg} (hr : r ≠ .status) (v : Word) : (s.writeReg r v).err = s.err := by
  have hunless : ∀ t : State, t.err = s.err → (s.unlessBusy t).err = s.err := fun t ht => by
    unfold State.unlessBusy
    split
    · rfl
    · exact ht
  cases r
  case status => exact absurd rfl hr
  case cmd => exact hunless _ rfl
  case dst => exact hunless _ rfl
  case src => exact hunless _ rfl
  case coef => exact hunless _ rfl
  case len => exact hunless _ rfl
  all_goals rfl

/-- Only a write to STATUS changes ERR, and only by the value's bit 2. -/
theorem writeOffset_err (s : State) (off : Nat) (v : Word) :
    (s.writeOffset off v).err = s.err ∨
      (off = Reg.status.offset ∧ v.getLsbD 2 = true ∧ (s.writeOffset off v).err = false) := by
  unfold State.writeOffset
  cases hreg : regAt off with
  | none => exact .inl rfl
  | some r =>
    have hoff : r.offset = off := by simpa [regAt] using List.find?_some hreg
    by_cases hstatus : r = .status
    · subst hstatus
      have hwrite : (s.writeReg .status v).err = (s.err && !v.getLsbD 2) := rfl
      cases hbit : v.getLsbD 2 with
      | true => exact .inr ⟨hoff.symm, rfl, by simp only [hwrite, hbit, Bool.not_true, Bool.and_false]⟩
      | false => exact .inl (by simp only [hwrite, hbit, Bool.not_false, Bool.and_true])
    · exact .inl (writeReg_err hstatus v)

/-- What a step means for ERR. -/
theorem step_errMove {s t : State} (hstep : step s = .next t) : ErrMove s t := by
  rcases step_move hstep with ⟨-, hmove⟩ | ⟨turn, rest, hturns, hmove⟩
  · exact hmove.errMove rfl rfl
  cases hmove with
  | read => exact .keep rfl id
  | @write addr v hblock =>
    change s.cfg.gfuBase ≤ addr at hblock
    rcases writeOffset_err (s.setTurns rest) (addr - s.cfg.gfuBase) v with hsame | ⟨hoff, hbit, hclear⟩
    · exact .keep hsame writeOffset_idle
    · change _ = 0x14 at hoff
      have haddr : addr = s.cfg.gfuBase + 0x14 := by omega
      exact .acknowledge (haddr ▸ hturns) hbit hclear writeOffset_idle
  | store => exact .keep rfl id
  | unit hmove => exact hmove.errMove rfl rfl
  | rst level =>
    cases level with
    | true => exact .reset hturns rfl rfl
    | false =>
      rw [setRst_false]
      split
      · exact .reset hturns rfl rfl
      · exact .keep rfl id

/-- Settles O50: the ways ERR moves, one after the other. -/
theorem errIsSticky : Obligations.ErrIsSticky := by
  refine ⟨fun c => rfl, fun s => ?_, fun s v rest hrst hturns => ?_, fun s t hstep => ?_⟩
  · rw [State.readReg, statusWord_getLsbD]
    rfl
  · exact ⟨_, step_busWrite_reg (r := .status) hrst hturns, rfl⟩
  · cases step_errMove hstep <;> grind

end Sys2Proof.Machine
end

section
/-! PROOFS. Footprints, and the host's accesses to memory that race with them (20_memory.md R58, R60,
70_reset_and_hazards.md R126). -/

namespace Sys2Proof.Machine

/-! ### The footprint of a command -/

/-- A command that raises an error accesses nothing (R58). -/
theorem readBuffers_of_error {i : Instr} {s : State} {f : InFlight} {e : ErrCode} (h : errorOf i s f = some e) :
    readBuffers i s f = [] := by simp [readBuffers, h]

theorem writtenBuffer_of_error {i : Instr} {s : State} {f : InFlight} {e : ErrCode} (h : errorOf i s f = some e) :
    writtenBuffer i s f = (0, 0) := by simp [writtenBuffer, h]

theorem readBuffers_mac {c : Byte} {s : State} {f : InFlight} (h : errorOf (.mac c) s f = none) :
    readBuffers (.mac c) s f = [(f.srcNat, f.lenNat), (f.dstNat, f.lenNat)] := by simp [readBuffers, h]

theorem writtenBuffer_mac {c : Byte} {s : State} {f : InFlight} (h : errorOf (.mac c) s f = none) :
    writtenBuffer (.mac c) s f = (f.dstNat, f.lenNat) := by simp [writtenBuffer, h]

theorem readBuffers_sins {s : State} {f : InFlight} (h : errorOf .sins s f = none) :
    readBuffers .sins s f = [(f.coefNat, s.solver.width), (f.srcNat, f.lenNat)] := by simp [readBuffers, h]

theorem writtenBuffer_ssol {s : State} {f : InFlight} (h : errorOf .ssol s f = none) :
    writtenBuffer .ssol s f = (f.dstNat, s.solver.width * s.solver.slen) := by simp [writtenBuffer, h]

/-- Settles O54, by the commands. -/
theorem footprintOfCommands : Obligations.FootprintOfCommands := by
  refine ⟨fun i s f e h => ⟨readBuffers_of_error h, writtenBuffer_of_error h⟩,
    fun i s f h => ⟨fun a b n hi => ?_, ?_, ?_, ?_⟩⟩
  · simp only [List.mem_cons, List.not_mem_nil, or_false] at hi
    rcases hi with rfl | rfl | rfl | rfl | rfl | rfl <;> simp [readBuffers, writtenBuffer, h]
  · rintro c rfl
    exact ⟨readBuffers_mac h, writtenBuffer_mac h⟩
  · rintro rfl
    exact ⟨readBuffers_sins h, by simp [writtenBuffer, h]⟩
  · rintro rfl
    exact ⟨by simp [readBuffers, h], writtenBuffer_ssol h⟩

/-- A footprint depends on the parameters, the solver and the latched operands only. -/
theorem readBuffers_congr (i : Instr) {s t : State} (hc : s.cfg = t.cfg) (hs : s.solver = t.solver) (f : InFlight) :
    readBuffers i s f = readBuffers i t f := by
  simp only [readBuffers, errorOf_congr i hc hs rfl rfl rfl rfl, hs]

theorem writtenBuffer_congr (i : Instr) {s t : State} (hc : s.cfg = t.cfg) (hs : s.solver = t.solver) (f : InFlight) :
    writtenBuffer i s f = writtenBuffer i t f := by
  simp only [writtenBuffer, errorOf_congr i hc hs rfl rfl rfl rfl, hs]

/-! ### The race rule -/

section Races
variable {s : State} {f : InFlight} {i : Instr}

/-- A host read races with the command in flight where that writes (R60). -/
theorem readRaces_eq (hf : s.inflight = some f) (hd : decode f.word = .ok i) (a : Nat) :
    s.readRaces a = inBuffer a (writtenBuffer i s f) := by
  simp [State.readRaces, State.writtenFootprint, hf, hd]

/-- A host write races with the command in flight where that reads or writes (R60). -/
theorem writeRaces_iff (hf : s.inflight = some f) (hd : decode f.word = .ok i) (a : Nat) :
    s.writeRaces a = true ↔
      inBuffer a (writtenBuffer i s f) = true ∨ ∃ b ∈ readBuffers i s f, inBuffer a b = true := by
  simp only [State.writeRaces, State.writtenFootprint, State.readFootprint, hf, hd, Bool.or_eq_true, List.any_eq_true]

theorem writeRaces_eq_false_iff (hf : s.inflight = some f) (hd : decode f.word = .ok i) (a : Nat) :
    s.writeRaces a = false ↔
      inBuffer a (writtenBuffer i s f) = false ∧ ∀ b ∈ readBuffers i s f, inBuffer a b = false := by
  rw [← Bool.not_eq_true, writeRaces_iff hf hd]
  simp only [not_or, not_exists, not_and, Bool.not_eq_true]

/-- Without a command in flight, and with an illegal word in flight, nothing races (R58, R60). -/
theorem not_races (h : s.inflight = none ∨ ∃ f e, s.inflight = some f ∧ decode f.word = .error e) (a : Nat) :
    s.readRaces a = false ∧ s.writeRaces a = false := by
  have hread : s.readFootprint = [] := by
    rcases h with h | ⟨f, e, hf, hd⟩ <;> simp [State.readFootprint, *]
  have hwritten : s.writtenFootprint = (0, 0) := by
    rcases h with h | ⟨f, e, hf, hd⟩ <;> simp [State.writtenFootprint, *]
  simp [State.readRaces, State.writeRaces, hread, hwritten, inBuffer]

end Races

/-! ### The host's accesses to memory -/

section HostMemory
variable (s : State) {a : Nat} (ha : a < s.cfg.memSize)
include ha

theorem hostRead_of_races (h : s.readRaces a = true) : hostRead a s = .fault (.hostRace a) := by
  rw [hostRead, if_neg (by omega), if_pos h]

theorem hostRead_of_not_races (h : s.readRaces a = false) :
    hostRead a s = .next (s.setReadData ((s.mem.read a).setWidth 32)) := by
  rw [hostRead, if_neg (by omega), if_neg (by simp [h])]

theorem hostWrite_of_races (h : s.writeRaces a = true) (v : Byte) : hostWrite a v s = .fault (.hostRace a) := by
  rw [hostWrite, if_neg (by omega), if_pos h]

theorem hostWrite_of_not_races (h : s.writeRaces a = false) (v : Byte) :
    hostWrite a v s = .next (s.setMem (s.mem.write a v)) := by
  rw [hostWrite, if_neg (by omega), if_neg (by simp [h])]

end HostMemory

/-- Settles O55: the host's turn meets the race rule at the state less that turn, whose footprint is the same. -/
theorem hostRaceFaults : Obligations.HostRaceFaults := by
  refine ⟨fun s f i a rest hf hd ha => ⟨fun v hturns => ?_, fun hturns => ?_⟩,
    fun s a rest hidle ha => ⟨fun v hturns => ?_, fun hturns => ?_⟩⟩ <;>
    rw [step_cons s _ rest hturns, takeTurn]
  · have hflight : (s.setTurns rest).inflight = some f := hf
    have hwritten : writtenBuffer i (s.setTurns rest) f = writtenBuffer i s f := writtenBuffer_congr i rfl rfl f
    have hread : readBuffers i (s.setTurns rest) f = readBuffers i s f := readBuffers_congr i rfl rfl f
    refine ⟨fun h => hostWrite_of_races (s.setTurns rest) ha ?_ v,
      fun hw hr => hostWrite_of_not_races (s.setTurns rest) ha ?_ v⟩
    · rwa [writeRaces_iff hflight hd, hwritten, hread]
    · rw [writeRaces_eq_false_iff hflight hd, hwritten, hread]
      exact ⟨hw, hr⟩
  · have hraces : (s.setTurns rest).readRaces a = inBuffer a (writtenBuffer i s f) :=
      (readRaces_eq hf hd a).trans (congrArg (inBuffer a) (writtenBuffer_congr i rfl rfl f))
    exact ⟨fun h => hostRead_of_races (s.setTurns rest) ha (hraces.trans h),
      fun h => hostRead_of_not_races (s.setTurns rest) ha (hraces.trans h)⟩
  · exact hostWrite_of_not_races (s.setTurns rest) ha (not_races (s := s.setTurns rest) hidle a).2 v
  · exact hostRead_of_not_races (s.setTurns rest) ha (not_races (s := s.setTurns rest) hidle a).1

end Sys2Proof.Machine
end

section
/-! PROOFS. The turns of a step: which register accesses are refused (10_state.md R51, R122), and the turns of the
engine (20_memory.md R56, R59). -/

namespace Sys2Proof.Machine

/-- An access to the register block is refused while `rst` is asserted, and for its shape (R51, R122). -/
theorem busRefusal_block (s : State) {off : Nat} (hoff : off < 256) (bytes : Nat) :
    s.busRefusal (s.cfg.gfuBase + off) bytes =
      if s.rst then some .accessDuringReset else if bytes ≠ 4 ∨ off % 4 ≠ 0 then some .accessShape else none := by
  rw [State.busRefusal, if_neg (by omega), Nat.add_sub_cancel_left]

/-- What a register reads does not depend on the turns to come. -/
theorem readOffset_setTurns (s : State) (ts : List Turn) (off : Nat) :
    (s.setTurns ts).readOffset off = s.readOffset off := by
  unfold State.readOffset
  cases regAt off with
  | none => rfl
  | some r => cases r <;> rfl

theorem unlessBusy_setTurns (s t : State) (ts : List Turn) :
    (s.setTurns ts).unlessBusy (t.setTurns ts) = (s.unlessBusy t).setTurns ts :=
  (apply_ite (State.setTurns ts) (s.busy = true) s.setOvr t).symm

/-- A register write leaves the turns to come alone. -/
theorem writeReg_setTurns (s : State) (ts : List Turn) (r : Reg) (v : Word) :
    (s.setTurns ts).writeReg r v = (s.writeReg r v).setTurns ts := by
  cases r
  case cmd => exact unlessBusy_setTurns s (s.issue v) ts
  case dst => exact unlessBusy_setTurns s { s with dst := v } ts
  case src => exact unlessBusy_setTurns s { s with src := v } ts
  case coef => exact unlessBusy_setTurns s { s with coef := v } ts
  case len => exact unlessBusy_setTurns s { s with len := v } ts
  all_goals rfl

theorem writeOffset_setTurns (s : State) (ts : List Turn) (off : Nat) (v : Word) :
    (s.setTurns ts).writeOffset off v = (s.writeOffset off v).setTurns ts := by
  unfold State.writeOffset
  cases regAt off with
  | none => rfl
  | some r => exact writeReg_setTurns s ts r v

/-- Settles O43: the refusal of an access to the block, and what one that is not refused does. -/
theorem refusedRegisterAccesses : Obligations.RefusedRegisterAccesses := by
  intro s off bytes v rest hoff
  have hrefusal : (s.setTurns rest).busRefusal (s.cfg.gfuBase + off) bytes =
      if s.rst then some .accessDuringReset else if bytes ≠ 4 ∨ off % 4 ≠ 0 then some .accessShape else none :=
    busRefusal_block (s.setTurns rest) hoff bytes
  constructor <;> intro hturns <;> rw [step_cons s _ rest hturns, takeTurn]
  · rw [busRead, hrefusal, State.setTurns_cfg, Nat.add_sub_cancel_left, readOffset_setTurns]
    refine ⟨fun hrst => by rw [if_pos hrst], fun hrst hshape => ?_, fun hrst hbytes halign => ?_⟩
    · rw [if_neg (by simp [hrst]), if_pos hshape]
    · rw [if_neg (by simp [hrst]), if_neg (by omega)]
      rfl
  · rw [busWrite, hrefusal, State.setTurns_cfg, Nat.add_sub_cancel_left, writeOffset_setTurns]
    refine ⟨fun hrst => by rw [if_pos hrst], fun hrst hshape => ?_, fun hrst hbytes halign => ?_⟩
    · rw [if_neg (by simp [hrst]), if_pos hshape]
    · rw [if_neg (by simp [hrst]), if_neg (by omega)]
      rfl

/-- The engine's remaining steps together are the command (log 2). -/
theorem engineRun_eq_exec {s : State} {f : InFlight} {i : Instr} (hf : s.inflight = some f)
    (hd : decode f.word = .ok i) : engineRun s = exec i s := by simp [engineRun, hf, hd]

/-- The accesses a command makes do not depend on the turns to come. -/
theorem accessTotal_setTurns (i : Instr) (s : State) (ts : List Turn) (f : InFlight) :
    accessTotal i (s.setTurns ts) f = accessTotal i s f := accessTotal_congr i rfl rfl rfl rfl rfl rfl

/-- Settles O8: each of the turns that complete a command is `exec` of it. -/
theorem stepRunsDecodedCommand : Obligations.StepRunsDecodedCommand := by
  refine ⟨fun s f i rest hf hd => ⟨fun hturns => ?_, fun hturns hmade => ?_, fun hturns hmade => ?_⟩,
    fun s w i hd => ?_⟩
  · rw [step_cons s _ rest hturns]
    exact engineRun_eq_exec (s := s.setTurns rest) hf hd
  · rw [step_cons s _ rest hturns]
    exact engineStep_complete (s.setTurns rest) f i hf hd (by rw [accessTotal_setTurns]; omega)
  · rw [step_nil s hturns]
    exact engineStep_complete s f i hf hd (by omega)
  · rw [step_cons (s.withFetchWord 32 w) .command s.turns rfl]
    exact engineRun_eq_exec (s := (s.withFetchWord 32 w).setTurns s.turns) (f := s.freshFlight (tableWord 32 w)) rfl hd

end Sys2Proof.Machine
end

section
/-! PROOFS. The one-byte accesses of a command, one after the other: what each reads and writes, and that they and the
completion end where the command ends (20_memory.md R47, R56, R58). -/

namespace Sys2Proof.Machine

/-! ### One access -/

theorem sameOperands.refl (f : InFlight) : sameOperands f f := ⟨rfl, rfl, rfl, rfl, rfl⟩

/-- The checks and the number of accesses do not depend on the progress of a command (R44). -/
theorem sameOperands.errorOf_eq {f g : InFlight} (hops : sameOperands g f) (i : Instr) {s t : State}
    (hc : t.cfg = s.cfg) (hs : t.solver = s.solver) : errorOf i t g = errorOf i s f :=
  let ⟨_, hdst, hsrc, hcoef, hlen⟩ := hops
  errorOf_congr i hc hs hdst hsrc hcoef hlen

theorem sameOperands.accessTotal_eq {f g : InFlight} (hops : sameOperands g f) (i : Instr) {s t : State}
    (hc : t.cfg = s.cfg) (hs : t.solver = s.solver) : accessTotal i t g = accessTotal i s f :=
  let ⟨_, hdst, hsrc, hcoef, hlen⟩ := hops
  accessTotal_congr i hc hs hdst hsrc hcoef hlen

/-- MAC writes only with the third access of an element, and then its byte of DST (R89). -/
theorem macAccess_mem_read (p : BitVec 9) (c : Byte) (fm : InFlight × Memory) {a : Nat}
    (h : fm.1.made % 3 ≠ 2 ∨ a ≠ fm.1.dstNat + fm.1.made / 3) : (macAccess p c fm).2.read a = fm.2.read a := by
  unfold macAccess
  split
  · rfl
  · split
    · rfl
    · exact Memory.read_write_ne _ _ _ _ (h.resolve_left (by omega))

/-- SSOL writes the next byte of its output (R99). -/
theorem ssolAccess_mem_read (xs : List (List Byte)) (n : Nat) (fm : InFlight × Memory) {a : Nat}
    (h : a ≠ fm.1.dstNat + fm.1.made) : (ssolAccess xs n fm).2.read a = fm.2.read a :=
  Memory.read_write_ne _ _ _ _ h

/-- An access depends on the parameters and the solver only. -/
theorem accessOnce_congr (i : Instr) {s t : State} (hc : s.cfg = t.cfg) (hs : s.solver = t.solver) :
    accessOnce i s = accessOnce i t := by
  funext fm
  simp only [accessOnce, hc, hs]

section Access
variable {i : Instr} {s : State} {f : InFlight}

/-- No byte outside the written buffer changes (R47, R58). -/
theorem accessOnce_mem_read {fm : InFlight × Memory} (hops : sameOperands fm.1 f)
    (h : fm.1.made < accessTotal i s f) {a : Nat} (ha : inBuffer a (writtenBuffer i s f) = false) :
    (accessOnce i s fm).2.read a = fm.2.read a := by
  rcases accessOnce_mem hops h with hsame | ⟨b, v, hb, hwrite⟩
  · rw [hsame]
  · rw [hwrite, Memory.read_write_ne _ _ _ _ fun hab => by simp [← hab, ha] at hb]

/-- An access is the read of a byte of a buffer the command reads, or the write of one of the buffer it writes;
which, and the value written, do not depend on memory (R58). -/
theorem accessOnce_eq {g : InFlight} (hops : sameOperands g f) (h : g.made < accessTotal i s f) :
    (∃ b, (∃ buf ∈ readBuffers i s f, inBuffer b buf = true) ∧ ∀ m, accessOnce i s (g, m) = fetchByte b (g, m)) ∨
      ∃ b v, inBuffer b (writtenBuffer i s f) = true ∧ ∀ m, accessOnce i s (g, m) = storeByte b v (g, m) := by
  obtain ⟨-, hdst, hsrc, hcoef, -⟩ := hops
  have herr := errorOf_of_access_left h
  obtain ⟨c, rfl, hk⟩ | ⟨rfl, hk⟩ | ⟨rfl, hk⟩ := access_commands h
  · have helem : g.made / 3 < f.lenNat := by omega
    rw [readBuffers_mac herr, writtenBuffer_mac herr]
    by_cases h0 : g.made % 3 = 0
    · exact .inl ⟨g.srcNat + g.made / 3, ⟨(f.srcNat, f.lenNat), by simp, by simp [InFlight.srcNat, hsrc, helem]⟩,
        fun m => if_pos h0⟩
    · by_cases h1 : g.made % 3 = 1
      · exact .inl ⟨g.dstNat + g.made / 3, ⟨(f.dstNat, f.lenNat), by simp, by simp [InFlight.dstNat, hdst, helem]⟩,
          fun m => (if_neg h0).trans (if_pos h1)⟩
      · exact .inr ⟨g.dstNat + g.made / 3,
          gfAdd (g.fetched.getD 1 0x00#8) (gfMul s.cfg.fieldPoly c (g.fetched.getD 0 0x00#8)),
          by simp [InFlight.dstNat, hdst, helem], fun m => (if_neg h0).trans (if_neg h1)⟩
  · rw [readBuffers_sins herr]
    by_cases hw : g.made < s.solver.width
    · exact .inl ⟨g.coefNat + g.made, ⟨(f.coefNat, s.solver.width), by simp, by simp [InFlight.coefNat, hcoef, hw]⟩,
        fun m => if_pos hw⟩
    · have hlen : g.made - s.solver.width < f.lenNat := by omega
      exact .inl ⟨g.srcNat + (g.made - s.solver.width),
        ⟨(f.srcNat, f.lenNat), by simp, by simp [InFlight.srcNat, hsrc, hlen]⟩, fun m => if_neg hw⟩
  · rw [writtenBuffer_ssol herr]
    exact .inr ⟨g.dstNat + g.made, solutionByte (s.solver.solution s.cfg.fieldPoly) s.solver.slen g.made,
      by simp [InFlight.dstNat, hdst, hk], fun m => rfl⟩

end Access

/-- Settles O9: the engine's turn is `accessOnce` at the state less that turn. -/
theorem unitAccessIsOneByte : Obligations.UnitAccessIsOneByte := by
  intro s f i rest hf hd hturns hleft
  have hstep : step s = .next (((s.setTurns rest).setMem (accessOnce i s (f, s.mem)).2).setInflight
      (accessOnce i s (f, s.mem)).1) := by
    rw [step_cons s _ rest hturns, takeTurn,
      engineStep_access (s.setTurns rest) f i hf hd (by rwa [accessTotal_setTurns]),
      accessOnce_congr (s := s.setTurns rest) (t := s) i rfl rfl, State.setTurns_mem]
  obtain ⟨hword, hdst, hsrc, hcoef, hlen⟩ := accessOnce_operands hleft (f, s.mem)
  have hmade := accessOnce_made hleft (f, s.mem)
  refine ⟨_, (accessOnce i s (f, s.mem)).1, hstep, rfl, rfl, ?_, ?_, ?_, ?_, fun a ha => ?_⟩
  · rw [InFlight.mk.injEq]
    exact ⟨hword, hdst, hsrc, hcoef, hlen, hmade, rfl⟩
  · rintro c rfl a ha
    exact macAccess_mem_read _ c (f, s.mem) ha
  · rintro rfl
    exact sinsAccess_mem ..
  · rintro rfl a ha
    exact ssolAccess_mem_read _ _ (f, s.mem) ha
  · exact accessOnce_mem_read (fm := (f, s.mem)) (.refl _) hleft ha

/-! ### All accesses still to make -/

section Remaining
variable {i : Instr} {s : State} {f : InFlight}

/-- What holds where no access is left, and before an access if after it, holds of every progress of a command. -/
theorem access_induct {P : (g : InFlight) → Memory → sameOperands g f → Prop}
    (done : ∀ g m hops, accessTotal i s f ≤ g.made → P g m hops)
    (access : ∀ g m hops (hleft : g.made < accessTotal i s f),
      P (accessOnce i s (g, m)).1 (accessOnce i s (g, m)).2 ((accessOnce_operands hleft (g, m)).trans hops) →
        P g m hops)
    (g : InFlight) (m : Memory) (hops : sameOperands g f) : P g m hops := by
  induction hn : accessTotal i s f - g.made generalizing g m with
  | zero => exact done g m hops (by omega)
  | succ n ih =>
    have hleft : g.made < accessTotal i s f := by omega
    have hmade : (accessOnce i s (g, m)).1.made = g.made + 1 := accessOnce_made hleft (g, m)
    exact access g m hops hleft (ih _ _ _ (by omega))

/-- The next access does not change where the accesses end. -/
theorem runAccesses_accessOnce {g : InFlight} (m : Memory) (hleft : g.made < accessTotal i s f) :
    runAccesses (accessOnce i s) (accessTotal i s f) (accessOnce i s (g, m)).1 (accessOnce i s (g, m)).2 =
      runAccesses (accessOnce i s) (accessTotal i s f) g m :=
  (runAccesses_step _ _ _ _ (accessOnce_made hleft (g, m)) hleft).symm

/-- All accesses of a command leave every byte outside the written buffer alone (R58). -/
theorem runAccesses_mem_read (g : InFlight) (m : Memory) (hops : sameOperands g f) {a : Nat}
    (ha : inBuffer a (writtenBuffer i s f) = false) :
    (runAccesses (accessOnce i s) (accessTotal i s f) g m).2.read a = m.read a := by
  induction g, m, hops using access_induct (i := i) (s := s) with
  | done g m hops hdone => rw [runAccesses_done _ _ _ _ hdone]
  | access g m hops hleft ih =>
    rw [← runAccesses_accessOnce m hleft, ih]
    exact accessOnce_mem_read (fm := (g, m)) hops hleft ha

end Remaining

/-- A command leaves every byte outside the written buffer alone (R58). -/
theorem commandEffects_mem_read (i : Instr) (s : State) {a : Nat}
    (ha : inBuffer a (writtenBuffer i s (s.flight i)) = false) : (commandEffects i s).mem.read a = s.mem.read a := by
  cases i
  case mac | ssol => exact runAccesses_mem_read _ _ (.refl _) ha
  all_goals rfl

theorem exec_mem_read {i : Instr} {s t : State} (h : exec i s = .next t) {a : Nat}
    (ha : inBuffer a (writtenBuffer i s (s.flight i)) = false) : t.mem.read a = s.mem.read a := by
  rcases exec_next h with ⟨e, -, rfl⟩ | ⟨-, rfl⟩
  · rfl
  · exact commandEffects_mem_read i s ha

/-- A command's completion raises ERR exactly with an error code, and keeps it otherwise (R106, R107). -/
theorem exec_err_iff {i : Instr} {s t : State} (h : exec i s = .next t) :
    t.err = true ↔ s.err = true ∨ t.errcode ≠ .noError := by
  rcases exec_next h with ⟨e, herr, rfl⟩ | ⟨-, rfl⟩
  · exact iff_of_true rfl (.inr (errorOf_ne_noError herr))
  · have hkeep : (commandEffects i s).err = s.err := by cases i <;> rfl
    simp [hkeep]

/-- Settles O37: an error completion and a successful one, and memory outside the written buffer. -/
theorem storingCommandsFrame : Obligations.StoringCommandsFrame := by
  refine ⟨fun c s t h => ⟨?_, exec_err_iff h, fun x hx => exec_mem_read h hx⟩,
    fun s t h => ⟨?_, exec_err_iff h, fun x hx => exec_mem_read h hx⟩⟩ <;>
    rcases exec_next h with ⟨e, -, rfl⟩ | ⟨-, rfl⟩ <;> rfl

/-! ### The single steps of the engine -/

/-- The state `s` with the command in flight at a progress. -/
def State.atProgress (s : State) (g : InFlight) (m : Memory) : State := (s.setMem m).setInflight g

theorem atProgress_self {s : State} {f : InFlight} (hf : s.inflight = some f) : s.atProgress f s.mem = s := by
  rw [State.atProgress, State.setInflight, ← hf]
  rfl

section Fine
variable {i : Instr} {s : State} {f : InFlight}

/-- The accesses still to make from a progress of the command `f`. -/
theorem remainingAccesses_atProgress {g : InFlight} (m : Memory) (hops : sameOperands g f) :
    remainingAccesses i (s.atProgress g m) = runAccesses (accessOnce i s) (accessTotal i s f) g m := by
  have htotal : accessTotal i (s.atProgress g m) g = accessTotal i s f := hops.accessTotal_eq i rfl rfl
  have haccess : accessOnce i (s.atProgress g m) = accessOnce i s := accessOnce_congr i rfl rfl
  rw [remainingAccesses, flight_some (s.atProgress g m) i g rfl, htotal, haccess]
  rfl

/-- The effects of a command are the same before and after its next access. -/
theorem commandEffects_accessOnce {g : InFlight} (m : Memory) (hops : sameOperands g f)
    (hleft : g.made < accessTotal i s f) :
    (commandEffects i (s.atProgress (accessOnce i s (g, m)).1 (accessOnce i s (g, m)).2)).successCompletion =
      (commandEffects i (s.atProgress g m)).successCompletion := by
  have hnext := accessOnce_operands hleft (g, m)
  have hremaining : remainingAccesses i (s.atProgress (accessOnce i s (g, m)).1 (accessOnce i s (g, m)).2) =
      remainingAccesses i (s.atProgress g m) := by
    rw [remainingAccesses_atProgress _ (hnext.trans hops), remainingAccesses_atProgress _ hops,
      runAccesses_accessOnce m hleft]
  obtain ⟨c, rfl, -⟩ | ⟨rfl, -⟩ | ⟨rfl, -⟩ := access_commands hleft
  · rw [commandEffects, hremaining]
    rfl
  · obtain ⟨-, -, -, -, hlen⟩ := hnext
    have hmem : (accessOnce .sins s (g, m)).2 = m := sinsAccess_mem ..
    rw [commandEffects, hremaining, hmem, flight_some _ _ _ rfl, InFlight.lenNat, hlen]
    rfl
  · rw [commandEffects, hremaining]
    rfl

/-- A command ends in the same state before and after its next access (R59). -/
theorem exec_accessOnce {g : InFlight} (m : Memory) (hops : sameOperands g f) (hleft : g.made < accessTotal i s f) :
    exec i (s.atProgress (accessOnce i s (g, m)).1 (accessOnce i s (g, m)).2) = exec i (s.atProgress g m) := by
  have herr (k : InFlight) (n : Memory) (hk : sameOperands k f) :
      errorOf i (s.atProgress k n) ((s.atProgress k n).flight i) = none :=
    (hk.errorOf_eq i rfl rfl).trans (errorOf_of_access_left hleft)
  have hnext := (accessOnce_operands hleft (g, m)).trans hops
  rw [exec_eq_conclude, exec_eq_conclude, herr _ _ hnext, herr _ _ hops, conclude_none, conclude_none,
    commandEffects_accessOnce m hops hleft]

/-- A turn of the engine with no access left is the rest of the command (R56). -/
theorem step_engine_complete (hd : decode f.word = .ok i) (rest : List Turn) {g : InFlight} (m : Memory)
    (hops : sameOperands g f) (hdone : accessTotal i s f ≤ g.made) :
    step ((s.setTurns (.engine :: rest)).atProgress g m) = exec i ((s.setTurns rest).atProgress g m) := by
  have htotal : accessTotal i ((s.setTurns rest).atProgress g m) g = accessTotal i s f := hops.accessTotal_eq i rfl rfl
  rw [step_cons _ .engine rest rfl]
  exact engineStep_complete ((s.setTurns rest).atProgress g m) g i rfl (hops.1 ▸ hd) (by omega)

/-- A turn of the engine with accesses left is the next one (R56). -/
theorem step_engine_access (hd : decode f.word = .ok i) (rest : List Turn) {g : InFlight} (m : Memory)
    (hops : sameOperands g f) (hleft : g.made < accessTotal i s f) :
    step ((s.setTurns (.engine :: rest)).atProgress g m) =
      .next ((s.setTurns rest).atProgress (accessOnce i s (g, m)).1 (accessOnce i s (g, m)).2) := by
  have htotal : accessTotal i ((s.setTurns rest).atProgress g m) g = accessTotal i s f := hops.accessTotal_eq i rfl rfl
  have haccess : accessOnce i ((s.setTurns rest).atProgress g m) = accessOnce i s := accessOnce_congr i rfl rfl
  rw [step_cons _ .engine rest rfl, ← haccess]
  exact engineStep_access ((s.setTurns rest).atProgress g m) g i rfl (hops.1 ▸ hd) (by omega)

end Fine

theorem run_one (s : State) : Host.Core.run Sys2Proof.core 1 s = step s := by
  cases h : step s <;> simp [Host.Core.run, Sys2Proof.core, h]

theorem run_succ {s t : State} (h : step s = .next t) (k : Nat) :
    Host.Core.run Sys2Proof.core (k + 1) s = Host.Core.run Sys2Proof.core k t := by
  simp [Host.Core.run, Sys2Proof.core, h]

/-- One engine turn per access left and one more end where the command ends, from every progress of it. -/
theorem run_engine_turns {i : Instr} {s : State} {f : InFlight} (hd : decode f.word = .ok i) (rest : List Turn)
    (g : InFlight) (m : Memory) (hops : sameOperands g f) :
    Host.Core.run Sys2Proof.core (accessTotal i s f - g.made + 1)
        ((s.setTurns (List.replicate (accessTotal i s f - g.made + 1) .engine ++ rest)).atProgress g m) =
      exec i ((s.setTurns rest).atProgress g m) := by
  induction g, m, hops using access_induct (i := i) (s := s) with
  | done g m hops hdone =>
    rw [Nat.sub_eq_zero_of_le hdone, run_one]
    exact step_engine_complete hd rest m hops hdone
  | access g m hops hleft ih =>
    have hmade : (accessOnce i s (g, m)).1.made = g.made + 1 := accessOnce_made hleft (g, m)
    have hcount : accessTotal i s f - g.made = accessTotal i s f - (g.made + 1) + 1 := by omega
    have htotal : accessTotal i (s.setTurns rest) f = accessTotal i s f := accessTotal_setTurns i s rest f
    have haccess : accessOnce i (s.setTurns rest) = accessOnce i s := accessOnce_congr i rfl rfl
    rw [hmade] at ih
    rw [hcount, List.replicate_succ, List.cons_append, run_succ (step_engine_access hd _ m hops hleft), ih, ← haccess]
    exact exec_accessOnce m hops (htotal.symm ▸ hleft)

/-- Settles O10: the engine's turns, from the progress the command in flight has made. -/
theorem fineStepsAgreeWithCommand : Obligations.FineStepsAgreeWithCommand := by
  intro s f i rest hf hd hturns
  have hrun := run_engine_turns (s := s) hd rest f s.mem (.refl _)
  rw [← hturns] at hrun
  rwa [show (s.setTurns s.turns).atProgress f s.mem = s from atProgress_self hf,
    show (s.setTurns rest).atProgress f s.mem = s.setTurns rest from atProgress_self (s := s.setTurns rest) hf] at hrun

end Sys2Proof.Machine
end

section
/-! PROOFS. The host's accesses to memory that do not race commute with the rest of the command in flight (20_memory.md
R56, R60). -/

namespace Sys2Proof.Machine

/-- Writes to two bytes commute, as data: the order of the two addresses and the one listed first says where each
goes. -/
theorem Memory.write_comm (m : Memory) {a b : Nat} (h : a ≠ b) (v w : Byte) :
    (m.write a v).write b w = (m.write b w).write a v := by
  induction m with
  | nil => grind [Memory.write]
  | cons c m ih => grind [Memory.write]

section HostWrite
variable {i : Instr} {s : State} {f : InFlight} {a : Nat} (v : Byte)
  (hwritten : inBuffer a (writtenBuffer i s f) = false) (hread : ∀ b ∈ readBuffers i s f, inBuffer a b = false)
include hwritten hread

/-- A host write outside the footprint commutes with an access of the command. -/
theorem accessOnce_hostWrite {g : InFlight} (m : Memory) (hops : sameOperands g f)
    (hleft : g.made < accessTotal i s f) :
    accessOnce i s (g, m.write a v) = ((accessOnce i s (g, m)).1, (accessOnce i s (g, m)).2.write a v) := by
  rcases accessOnce_eq hops hleft with ⟨b, ⟨buf, hbuf, hb⟩, haccess⟩ | ⟨b, w, hb, haccess⟩ <;> rw [haccess, haccess]
  · have hne : b ≠ a := fun hba => by simp [hba, hread buf hbuf] at hb
    simp only [fetchByte, Memory.read_write_ne _ _ _ _ hne]
  · have hne : a ≠ b := fun hab => by simp [← hab, hwritten] at hb
    simp only [storeByte, Memory.write_comm m hne]

/-- A host write outside the footprint commutes with all accesses still to make. -/
theorem runAccesses_hostWrite (g : InFlight) (m : Memory) (hops : sameOperands g f) :
    runAccesses (accessOnce i s) (accessTotal i s f) g (m.write a v) =
      ((runAccesses (accessOnce i s) (accessTotal i s f) g m).1,
        (runAccesses (accessOnce i s) (accessTotal i s f) g m).2.write a v) := by
  induction g, m, hops using access_induct (i := i) (s := s) with
  | done g m hops hdone => rw [runAccesses_done _ _ _ _ hdone, runAccesses_done _ _ _ _ hdone]
  | access g m hops hleft ih =>
    rw [← runAccesses_accessOnce m hleft, ← ih, ← runAccesses_accessOnce (m.write a v) hleft,
      accessOnce_hostWrite v hwritten hread m hops hleft]

end HostWrite

/-- What `exec` answers at `u` is its answer at `s` changed by `F`, if the completions are. -/
theorem exec_map {i : Instr} {s u : State} (F : State → State)
    (herr : errorOf i u (u.flight i) = errorOf i s (s.flight i))
    (hfail : ∀ e, u.errorCompletion e = F (s.errorCompletion e))
    (hok : (commandEffects i u).successCompletion = F (commandEffects i s).successCompletion) :
    ∃ t, exec i s = .next t ∧ exec i u = .next (F t) := by
  rw [exec_eq_conclude, exec_eq_conclude i u, herr]
  cases errorOf i s (s.flight i) with
  | some e => exact ⟨_, rfl, congrArg _ (hfail e)⟩
  | none => exact ⟨_, rfl, congrArg _ hok⟩

section CommandHostWrite
variable {i : Instr} {s : State} {a : Nat} (v : Byte)
  (hwritten : inBuffer a (writtenBuffer i s (s.flight i)) = false)
  (hread : ∀ b ∈ readBuffers i s (s.flight i), inBuffer a b = false)
include hwritten hread

theorem remainingAccesses_hostWrite : remainingAccesses i (s.setMem (s.mem.write a v)) =
    ((remainingAccesses i s).1, (remainingAccesses i s).2.write a v) := by
  have htotal : accessTotal i (s.setMem (s.mem.write a v)) (s.flight i) = accessTotal i s (s.flight i) :=
    accessTotal_congr i rfl rfl rfl rfl rfl rfl
  have haccess : accessOnce i (s.setMem (s.mem.write a v)) = accessOnce i s := accessOnce_congr i rfl rfl
  have hrun := runAccesses_hostWrite v hwritten hread (s.flight i) s.mem (.refl _)
  rwa [← htotal, ← haccess] at hrun

/-- A host write outside the footprint commutes with the effects of the command. -/
theorem commandEffects_hostWrite : commandEffects i (s.setMem (s.mem.write a v)) =
    (commandEffects i s).setMem ((commandEffects i s).mem.write a v) := by
  have hremaining := remainingAccesses_hostWrite v hwritten hread
  cases i
  case mac | sins | ssol =>
    simp only [commandEffects, hremaining]
    rfl
  all_goals rfl

/-- A host write outside the footprint commutes with the command. -/
theorem exec_hostWrite : ∃ t, exec i s = .next t ∧
    exec i (s.setMem (s.mem.write a v)) = .next (t.setMem (t.mem.write a v)) :=
  exec_map (fun t => t.setMem (t.mem.write a v)) (errorOf_congr i rfl rfl rfl rfl rfl rfl) (fun _ => rfl)
    (by rw [commandEffects_hostWrite v hwritten hread]; rfl)

end CommandHostWrite

/-- What the host read last bears on no effect of a command (log 7). -/
theorem commandEffects_setReadData (i : Instr) (s : State) (d : Word) :
    commandEffects i (s.setReadData d) = (commandEffects i s).setReadData d := by
  cases i <;> rfl

/-- A host read outside the written buffer commutes with the command. -/
theorem exec_hostRead {i : Instr} {s : State} {a : Nat}
    (hwritten : inBuffer a (writtenBuffer i s (s.flight i)) = false) :
    ∃ t, exec i s = .next t ∧
      exec i (s.setReadData ((s.mem.read a).setWidth 32)) = .next (t.setReadData ((t.mem.read a).setWidth 32)) := by
  obtain ⟨t, ht, hu⟩ := exec_map (i := i) (s := s) (u := s.setReadData ((s.mem.read a).setWidth 32))
    (State.setReadData ((s.mem.read a).setWidth 32)) (errorOf_congr i rfl rfl rfl rfl rfl rfl) (fun _ => rfl)
    (by rw [commandEffects_setReadData]; rfl)
  exact ⟨t, ht, by rwa [exec_mem_read ht hwritten]⟩

/-- A command leaves the unit idle. -/
theorem exec_inflight {i : Instr} {s t : State} (h : exec i s = .next t) : t.inflight = none := by
  rcases exec_next h with ⟨e, -, rfl⟩ | ⟨-, rfl⟩ <;> rfl

/-- Settles O56: what the host accesses lies outside the footprint, and after the command nothing races. -/
theorem hostAccessesCommute : Obligations.HostAccessesCommute := by
  intro s s' f i a v _ hf hd
  have hflight := flight_some s i f hf
  refine ⟨fun hwrite => ?_, fun hread => ?_⟩
  · obtain ⟨ha, hraces, rfl⟩ := hostWrite_next s a v s' hwrite
    obtain ⟨hwritten, hreads⟩ := (writeRaces_eq_false_iff hf hd a).1 hraces
    obtain ⟨t, ht, ht'⟩ := exec_hostWrite (i := i) (s := s) (a := a) v (by rwa [hflight]) (by rwa [hflight])
    have hcfg := (EngineMove.of_exec hf hd ht).cfg
    exact ⟨t, _, ht, ht', hostWrite_of_not_races t (hcfg ▸ ha) (not_races (.inl (exec_inflight ht)) a).2 v⟩
  · obtain ⟨ha, hraces, rfl⟩ := hostRead_next s a s' hread
    have hwritten := (readRaces_eq hf hd a).symm.trans hraces
    obtain ⟨t, ht, ht'⟩ := exec_hostRead (i := i) (s := s) (a := a) (by rwa [hflight])
    have hcfg := (EngineMove.of_exec hf hd ht).cfg
    exact ⟨t, _, ht, ht', hostRead_of_not_races t (hcfg ▸ ha) (not_races (.inl (exec_inflight ht)) a).1⟩

end Sys2Proof.Machine
end

section
/-! PROOFS. The decoder and the encoder: a word with a row's opcode decodes to that row's command exactly if the field
that must be 0 is, and decoding and encoding undo each other (30_encoding.md R66 to R71, R76, R78). -/

namespace Sys2Proof

open Machine

/-! ### The rows of the opcode map -/

/-- OPC of the row of a command (R67). -/
def rowOpcode : Instr → BitVec 8
  | .add _ _ => 0x01
  | .mul _ _ => 0x02
  | .div _ _ => 0x03
  | .inv _ => 0x04
  | .mac _ => 0x08
  | .sclr => 0x10
  | .swid _ => 0x11
  | .sins => 0x12
  | .ssol => 0x13

/-- The field that must be 0 in the row of a command: its lowest bit and its width (R66, R70). -/
def zeroField : Instr → Nat × Nat
  | .add _ _ | .mul _ _ | .div _ _ => (0, 8)
  | .inv _ | .mac _ => (0, 16)
  | .sclr | .sins | .ssol => (0, 24)
  | .swid _ => (16, 8)

/-- What a word holds in that field. -/
def zeroBits (i : Instr) (w : Word) : BitVec (zeroField i).2 := w.extractLsb' (zeroField i).1 (zeroField i).2

/-- The command of the row of `i` with the operands of a word (R68). -/
def withOperandsOf (w : Word) : Instr → Instr
  | .add _ _ => .add (aField w) (bField w)
  | .mul _ _ => .mul (aField w) (bField w)
  | .div _ _ => .div (aField w) (bField w)
  | .inv _ => .inv (aField w)
  | .mac _ => .mac (aField w)
  | .sclr => .sclr
  | .swid _ => .swid (nField w)
  | .sins => .sins
  | .ssol => .ssol

@[simp] theorem tableMask_withOperandsOf (w : Word) (i : Instr) : tableMask (withOperandsOf w i) = tableMask i := by
  cases i <;> rfl

@[simp] theorem tableMatch_withOperandsOf (w : Word) (i : Instr) : tableMatch (withOperandsOf w i) = tableMatch i := by
  cases i <;> rfl

theorem wf_withOperandsOf (w : Word) (i : Instr) : (withOperandsOf w i).wf = true := by
  cases i
  case swid n => exact decide_eq_true (BitVec.isLt _)
  all_goals rfl

/-- The match column has the opcode, and 0 below it (R67). -/
theorem tableMatch_eq_append (i : Instr) : tableMatch i = rowOpcode i ++ 0#24 := by
  cases i <;> (simp only [tableMatch, rowOpcode]; decide)

theorem toNat_rowOpcode_mem (i : Instr) : (rowOpcode i).toNat ∈ [1, 2, 3, 4, 8, 16, 17, 18, 19] := by
  cases i <;> (dsimp only [rowOpcode]; decide)

theorem opcField_tableMatch (i : Instr) : opcField (tableMatch i) = rowOpcode i := by
  rw [tableMatch_eq_append]
  exact BitVec.extractLsb'_append_eq_left

theorem zeroBits_tableMatch (i : Instr) : zeroBits i (tableMatch i) = 0#_ := by
  cases i <;> (dsimp only [tableMatch, zeroBits, zeroField]; decide)

/-- The mask column has 1 in the opcode and in the field that must be 0 (R67). -/
theorem tableMask_fields (i : Instr) :
    opcField (tableMask i) = .allOnes 8 ∧ zeroBits i (tableMask i) = .allOnes _ := by
  cases i <;> (dsimp only [tableMask, zeroBits, zeroField]; decide)

/-! ### Decoding -/

theorem ifZero_eq_ok_iff {k : Nat} {z : BitVec k} {i j : Instr} : ifZero z i = .ok j ↔ z = 0#k ∧ i = j := by
  unfold ifZero
  split <;> simp [*]

theorem ifZero_of_ne {k : Nat} {z : BitVec k} (h : z ≠ 0#k) (i : Instr) : ifZero z i = .error .fieldNotZero :=
  if_neg h

/-- R69 for a word with the opcode of a row. -/
theorem decode_of_opcode {w : Word} {i : Instr} (h : opcField w = rowOpcode i) :
    decode w = ifZero (zeroBits i w) (withOperandsOf w i) := by
  cases i <;> (simp only [decode, h, rowOpcode]; rfl)

/-- R69 for a word with the opcode and the zeros of a row. -/
theorem decode_of_row {w : Word} {i : Instr} (hopc : opcField w = rowOpcode i) (hzero : zeroBits i w = 0#_) :
    decode w = .ok (withOperandsOf w i) :=
  (decode_of_opcode hopc).trans (ifZero_eq_ok_iff.2 ⟨hzero, rfl⟩)

/-- R69 for a word with the opcode of no row. -/
theorem decode_of_no_row {w : Word} (h : ∀ i, opcField w ≠ rowOpcode i) : decode w = .error .reservedOpcode := by
  exact (if_neg (h (.add 0 0))).trans <| (if_neg (h (.mul 0 0))).trans <| (if_neg (h (.div 0 0))).trans <|
    (if_neg (h (.inv 0))).trans <| (if_neg (h (.mac 0))).trans <| (if_neg (h .sclr)).trans <|
    (if_neg (h (.swid 0))).trans <| (if_neg (h .sins)).trans <| if_neg (h .ssol)

/-- A word that decodes to a command has its row's opcode and zeros, and the operands are the word's (R69). -/
theorem exists_row_of_decode {w : Word} {i : Instr} (h : decode w = .ok i) :
    ∃ j, opcField w = rowOpcode j ∧ zeroBits j w = 0#_ ∧ i = withOperandsOf w j := by
  by_cases hrow : ∃ j, opcField w = rowOpcode j
  · obtain ⟨j, hj⟩ := hrow
    rw [decode_of_opcode hj, ifZero_eq_ok_iff] at h
    exact ⟨j, hj, h.1, h.2.symm⟩
  · rw [decode_of_no_row (not_exists.1 hrow)] at h
    cases h

/-! ### The words of the encoder -/

theorem opcField_formatF (opc a b : BitVec 8) : opcField (formatF opc a b) = opc :=
  ((BitVec.extractLsb'_append_eq_of_le (by decide)).trans (BitVec.extractLsb'_append_eq_of_le (by decide))).trans
    BitVec.extractLsb'_append_eq_left

theorem aField_formatF (opc a b : BitVec 8) : aField (formatF opc a b) = a :=
  ((BitVec.extractLsb'_append_eq_of_le (by decide)).trans (BitVec.extractLsb'_append_eq_of_le (by decide))).trans
    BitVec.extractLsb'_append_eq_right

theorem bField_formatF (opc a b : BitVec 8) : bField (formatF opc a b) = b :=
  (BitVec.extractLsb'_append_eq_of_le (by decide)).trans BitVec.extractLsb'_append_eq_right

theorem nField_formatW (opc : BitVec 8) {n : Nat} (h : n < 2 ^ 16) : nField (formatW opc n) = n :=
  (congrArg BitVec.toNat BitVec.extractLsb'_append_eq_right).trans (Nat.mod_eq_of_lt h)

/-- A command is the command of its row with the operands its word holds (R68, R76). -/
theorem withOperandsOf_encode {i : Instr} (h : i.wf = true) : withOperandsOf (encode i) i = i := by
  cases i with
  | add a b | mul a b | div a b => simp only [withOperandsOf, encode, aField_formatF, bField_formatF]
  | inv a | mac a => simp only [withOperandsOf, encode, aField_formatF]
  | swid n => rw [withOperandsOf, encode, nField_formatW _ (of_decide_eq_true h)]
  | sclr | sins | ssol => rfl

theorem opcField_append_aField (w : Word) : opcField w ++ aField w = w.extractLsb' 16 16 :=
  BitVec.extractLsb'_append_extractLsb'_eq_extractLsb' rfl

/-- A word is its four bytes (R66). -/
theorem word_eq_bytes (w : Word) : opcField w ++ aField w ++ bField w ++ w.extractLsb' 0 8 = w := by
  have hrest : w.extractLsb' 16 16 ++ bField w = w.extractLsb' 8 24 :=
    BitVec.extractLsb'_append_extractLsb'_eq_extractLsb' rfl
  rw [opcField_append_aField, hrest]
  exact (BitVec.extractLsb'_append_extractLsb'_eq_extractLsb' rfl).trans BitVec.extractLsb'_eq_self

/-- A part of a field that is 0 is 0. -/
theorem extractLsb'_eq_zero_of_subfield {w : Word} {s n s' n' : Nat} (h : w.extractLsb' s n = 0#n) (hs : s ≤ s')
    (hn : s' + n' ≤ s + n) : w.extractLsb' s' n' = 0#n' := by
  refine BitVec.eq_of_getLsbD_eq fun k hk => ?_
  have hbit := congrArg (BitVec.getLsbD · (s' - s + k)) h
  simpa [show s' - s + k < n by omega, show s + (s' - s + k) = s' + k by omega, hk] using hbit

theorem formatF_fields {w : Word} {opc : BitVec 8} (hopc : opcField w = opc) (hzero : w.extractLsb' 0 8 = 0#8) :
    formatF opc (aField w) (bField w) = w := by
  rw [formatF, ← hopc, ← hzero, word_eq_bytes]

theorem formatW_fields {w : Word} {opc : BitVec 8} (hopc : opcField w = opc) (hzero : w.extractLsb' 16 8 = 0#8) :
    formatW opc (nField w) = w := by
  rw [formatW, ← hopc, ← hzero, nField, BitVec.ofNat_toNat, BitVec.setWidth_eq, ← aField, opcField_append_aField]
  exact (BitVec.extractLsb'_append_extractLsb'_eq_extractLsb' rfl).trans BitVec.extractLsb'_eq_self

/-- A word of a row is the word of the command with its operands (R76). -/
theorem encode_withOperandsOf {w : Word} {i : Instr} (hopc : opcField w = rowOpcode i) (hzero : zeroBits i w = 0#_) :
    encode (withOperandsOf w i) = w := by
  cases i with
  | add a b | mul a b | div a b => exact formatF_fields hopc hzero
  | inv a | mac a =>
    have hlow : w.extractLsb' 0 16 = 0#16 := hzero
    have hb : bField w = 0x00 := extractLsb'_eq_zero_of_subfield hlow (by decide) (by decide)
    have hword := formatF_fields hopc (extractLsb'_eq_zero_of_subfield hlow (by decide) (by decide))
    rwa [hb] at hword
  | sclr | sins | ssol =>
    have hlow : w.extractLsb' 0 24 = 0#24 := hzero
    have ha : aField w = 0x00 := extractLsb'_eq_zero_of_subfield hlow (by decide) (by decide)
    have hb : bField w = 0x00 := extractLsb'_eq_zero_of_subfield hlow (by decide) (by decide)
    have hword := formatF_fields hopc (extractLsb'_eq_zero_of_subfield hlow (by decide) (by decide))
    rwa [ha, hb] at hword
  | swid n => exact formatW_fields hopc hzero

/-! ### Selection by match and mask -/

/-- The word of a command selects its row (R67). -/
theorem encode_selects (i : Instr) : encode i &&& tableMask i = tableMatch i := by
  cases i with
  | add a b => exact Laws.TableRow.add a b
  | mul a b => exact Laws.TableRow.mul a b
  | div a b => exact Laws.TableRow.div a b
  | inv a => exact Laws.TableRow.inv a
  | mac c => exact Laws.TableRow.mac c
  | sclr => exact Laws.TableRow.sclr
  | swid n => exact Laws.TableRow.swid n
  | sins => exact Laws.TableRow.sins
  | ssol => exact Laws.TableRow.ssol

/-- A word selects a row exactly if it has its opcode and 0 in the field that must be 0 (R67, R70). -/
theorem selects_iff {i : Instr} {w : Word} :
    w &&& tableMask i = tableMatch i ↔ opcField w = rowOpcode i ∧ zeroBits i w = 0#_ := by
  obtain ⟨hmaskOpc, hmaskZero⟩ := tableMask_fields i
  refine ⟨fun h => ⟨?_, ?_⟩, fun ⟨hopc, hzero⟩ => ?_⟩
  · have hfield : opcField (w &&& tableMask i) = rowOpcode i := h ▸ opcField_tableMatch i
    rwa [opcField, BitVec.extractLsb'_and, ← opcField, ← opcField, hmaskOpc, BitVec.and_allOnes] at hfield
  · have hfield : zeroBits i (w &&& tableMask i) = 0#_ := h ▸ zeroBits_tableMatch i
    rwa [zeroBits, BitVec.extractLsb'_and, ← zeroBits, ← zeroBits, hmaskZero, BitVec.and_allOnes] at hfield
  · have hselects := encode_selects (withOperandsOf w i)
    rwa [encode_withOperandsOf hopc hzero, tableMask_withOperandsOf, tableMatch_withOperandsOf] at hselects

/-! ### The obligations -/

/-- Decoding undoes encoding (R76). -/
theorem decode_encode {i : Instr} (h : i.wf = true) : decode (encode i) = .ok i := by
  obtain ⟨hopc, hzero⟩ := selects_iff.1 (encode_selects i)
  rw [decode_of_row hopc hzero, withOperandsOf_encode h]

/-- Settles O2: both directions by the row of the command. -/
theorem decodeEncodeRoundTrip : Obligations.DecodeEncodeRoundTrip := by
  refine ⟨fun a b => ⟨rfl, rfl, rfl, rfl, rfl⟩, ⟨by decide, by decide, by decide, fun n => rfl⟩,
    fun i hwf => decode_encode hwf, fun w i h => ?_⟩
  obtain ⟨j, hopc, hzero, rfl⟩ := exists_row_of_decode h
  exact ⟨wf_withOperandsOf w j, encode_withOperandsOf hopc hzero⟩

/-- Settles O3: to select a row is to have its opcode and zeros, and that is what the decoder looks at. -/
theorem opcodeMapSelects : Obligations.OpcodeMapSelects := by
  refine ⟨fun w i h => ?_, fun w i h => ?_, fun w i j hi hj => ?_⟩
  · obtain ⟨j, hopc, hzero, rfl⟩ := exists_row_of_decode h
    rw [tableMask_withOperandsOf, tableMatch_withOperandsOf]
    exact selects_iff.2 ⟨hopc, hzero⟩
  · obtain ⟨hopc, hzero⟩ := selects_iff.1 h
    exact ⟨_, decode_of_row hopc hzero, tableMatch_withOperandsOf w i, tableMask_withOperandsOf w i⟩
  · obtain ⟨hi, -⟩ := selects_iff.1 hi
    obtain ⟨hj, -⟩ := selects_iff.1 hj
    rw [tableMatch_eq_append, tableMatch_eq_append, ← hi, ← hj]

/-- Settles O4: with the opcode right, a word that misses the row has a 1 in the field that must be 0. -/
theorem mustBeZeroFieldsChecked : Obligations.MustBeZeroFieldsChecked := by
  intro i w hopc hmiss
  have hrow : opcField w = rowOpcode i := hopc.trans (opcField_tableMatch i)
  rw [decode_of_opcode hrow]
  exact ifZero_of_ne (fun hzero => hmiss (selects_iff.2 ⟨hrow, hzero⟩)) _

/-- Settles O5: a reserved opcode is that of no row, and the engine completes an illegal word with ILLEGAL. -/
theorem reservedOpcodesIllegal : Obligations.ReservedOpcodesIllegal := by
  refine ⟨by decide +kernel, fun w hreserved => ?_⟩
  have hdecode : decode w = .error .reservedOpcode := decode_of_no_row fun i hi => by
    have hmem := toNat_rowOpcode_mem i
    simp only [← hi, List.mem_cons, List.not_mem_nil, or_false] at hmem
    omega
  refine ⟨hdecode, fun s f rest hf hw hturns => ?_⟩
  rw [step_cons s _ rest hturns]
  exact engineStep_illegal (s.setTurns rest) f _ hf (hw ▸ hdecode)

/-- Settles O1: the words of R78 and the examples of R70 and R71, evaluated. -/
theorem workedEncodings : Obligations.WorkedEncodings :=
  ⟨by decide, List.all_iff_forall_prop.1 (by decide), List.all_iff_forall_prop.1 (by decide)⟩

end Sys2Proof
end

section
/-! PROOFS. Assembling the canonical disassembly of a command gives the command (30_encoding.md R73, R77). -/

namespace Sys2Proof.Machine

/-! ### Literals -/

/-- A character of a mnemonic or a literal: neither a blank nor one of the two separators (R73). -/
def isPlain (c : Char) : Bool := !isBlank c && c != ',' && c != ';'

theorem isPlain_iff {c : Char} : isPlain c = true ↔ isBlank c = false ∧ c ≠ ',' ∧ c ≠ ';' := by
  simp [isPlain, and_assoc]

/-- The digits of R77, one by one. -/
theorem hexDigit_facts : ∀ k < 16, digitValue (hexDigit 97 k) = some k ∧ isPlain (hexDigit 97 k) = true := by decide

/-- A field reads as the low digits of its number, after the digits before it. -/
theorem foldl_pushDigit_hexDigits (digits acc n : Nat) :
    (hexDigits 97 digits n).foldl (pushDigit 16) (some acc) = some (acc * 16 ^ digits + n % 16 ^ digits) := by
  induction digits generalizing n with
  | zero => simp [hexDigits, Nat.mod_one]
  | succ digits ih =>
    have hlt : n % 16 < 16 := Nat.mod_lt _ (by decide)
    rw [hexDigits, List.foldl_append, ih, Nat.pow_succ', Nat.mod_mul]
    simp only [List.foldl_cons, List.foldl_nil, pushDigit, (hexDigit_facts _ hlt).1, if_pos hlt]
    congr 1
    ring

/-- A literal of R77 reads as its number. -/
theorem literal_hexField {digits n : Nat} (h : n < 16 ^ (digits + 1)) : literal (hexField (digits + 1) n) = some n := by
  have hvalue := foldl_pushDigit_hexDigits (digits + 1) 0 n
  have hne : hexDigits 97 (digits + 1) n ≠ [] := by simp [hexDigits]
  obtain ⟨c, t, hct⟩ := List.exists_cons_of_ne_nil hne
  rw [hct, Nat.zero_mul, Nat.zero_add, Nat.mod_eq_of_lt h] at hvalue
  rwa [hexField, hct]

theorem byteOperand_hexField (a : Byte) : byteOperand (hexField 2 a.toNat) = .ok a := by
  rw [byteOperand, literal_hexField a.isLt]
  simp [a.isLt]

theorem widthOperand_hexField {n : Nat} (h : n < 2 ^ 16) : widthOperand (hexField 4 n) = .ok n := by
  rw [widthOperand, literal_hexField h]
  exact if_pos h

/-! ### Tokens -/

/-- A nonempty text without blanks and separators: a mnemonic or a literal. -/
def IsToken (t : List Char) : Prop := t ≠ [] ∧ t.all isPlain = true

theorem IsToken.plain {t : List Char} (h : IsToken t) : ∀ c ∈ t, isBlank c = false ∧ c ≠ ',' ∧ c ≠ ';' :=
  fun c hc => isPlain_iff.1 (List.all_eq_true.1 h.2 c hc)

theorem all_isPlain_hexDigits (digits n : Nat) : (hexDigits 97 digits n).all isPlain = true := by
  induction digits generalizing n with
  | zero => rfl
  | succ digits ih => simp [hexDigits, ih, hexDigit_facts _ (Nat.mod_lt n (by decide : 0 < 16))]

theorem isToken_hexField (digits n : Nat) : IsToken (hexField digits n) := by
  have hlead : ['0', 'x'].all isPlain = true := by decide
  exact ⟨by simp [hexField], by rw [hexField, List.all_append, hlead, all_isPlain_hexDigits]; rfl⟩

theorem isToken_mnemonic (i : Instr) : IsToken (mnemonic i) := by
  cases i <;> (dsimp only [IsToken, mnemonic]; decide)

theorem toUpper_mnemonic (i : Instr) : (mnemonic i).map Char.toUpper = mnemonic i := by
  cases i <;> (dsimp only [mnemonic]; decide)

/-! ### The parts of a line -/

/-- The operands but the first, each after a comma and a blank. -/
def moreOperands (as : List (List Char)) : List Char := as.flatMap fun a => [',', ' '] ++ a

/-- The operands as R77 writes them after the mnemonic. -/
def operandsText : List (List Char) → List Char
  | [] => []
  | a :: as => ' ' :: (a ++ moreOperands as)

/-- The operands of a command, as R77 writes them. -/
def operandFields : Instr → List (List Char)
  | .add a b | .mul a b | .div a b => [hexField 2 a.toNat, hexField 2 b.toNat]
  | .inv a | .mac a => [hexField 2 a.toNat]
  | .swid n => [hexField 4 n]
  | .sclr | .sins | .ssol => []

theorem commandText_eq (i : Instr) : commandText i = mnemonic i ++ operandsText (operandFields i) := by
  cases i <;> simp [commandText, operandsText, moreOperands, operandFields]

theorem isToken_operandFields (i : Instr) : ∀ a ∈ operandFields i, IsToken a := by
  cases i <;> simp [operandFields, isToken_hexField]

theorem splitAtCommas_of_no_comma {t : List Char} (h : ∀ c ∈ t, c ≠ ',') : splitAtCommas t = [t] := by
  induction t with
  | nil => rfl
  | cons c t ih =>
    obtain ⟨hc, ht⟩ := List.forall_mem_cons.1 h
    simp [splitAtCommas, hc, ih ht]

theorem splitAtCommas_append_comma {t : List Char} (h : ∀ c ∈ t, c ≠ ',') (u : List Char) :
    splitAtCommas (t ++ ',' :: u) = t :: splitAtCommas u := by
  induction t with
  | nil => rfl
  | cons c t ih =>
    obtain ⟨hc, ht⟩ := List.forall_mem_cons.1 h
    simp [splitAtCommas, hc, ih ht]

theorem splitAtCommas_operandsText {a : List Char} {as : List (List Char)} (h : ∀ b ∈ a :: as, IsToken b) :
    splitAtCommas (operandsText (a :: as)) = (a :: as).map (' ' :: ·) := by
  induction as generalizing a with
  | nil =>
    have hcomma : ∀ c ∈ ' ' :: a, c ≠ ',' := by simpa using fun c hc => ((h a (by simp)).plain c hc).2.1
    simpa [operandsText, moreOperands] using splitAtCommas_of_no_comma hcomma
  | cons b as ih =>
    obtain ⟨ha, has⟩ := List.forall_mem_cons.1 h
    have hcomma : ∀ c ∈ ' ' :: a, c ≠ ',' := by simpa using fun c hc => (ha.plain c hc).2.1
    rw [List.map_cons, ← ih has, ← splitAtCommas_append_comma hcomma]
    rfl

/-- A text without a blank at either end. -/
def Trimmed (t : List Char) : Prop :=
  (∃ c, t.head? = some c ∧ isBlank c = false) ∧ ∃ c, t.getLast? = some c ∧ isBlank c = false

theorem trimBlanks_of_trimmed {t : List Char} (h : Trimmed t) : trimBlanks t = t := by
  have hdrop {u : List Char} {c : Char} (hu : u.head? = some c) (hc : isBlank c = false) : u.dropWhile isBlank = u := by
    obtain ⟨v, rfl⟩ := List.head?_eq_some_iff.1 hu
    simp [hc]
  obtain ⟨⟨c, hfirst, hc⟩, d, hlast, hd⟩ := h
  rw [trimBlanks, hdrop hfirst hc, hdrop (List.head?_reverse.trans hlast) hd, List.reverse_reverse]

theorem IsToken.trimmed {t : List Char} (h : IsToken t) : Trimmed t :=
  ⟨⟨_, List.head?_eq_some_head h.1, (h.plain _ (List.head_mem h.1)).1⟩,
    _, List.getLast?_eq_some_getLast h.1, (h.plain _ (List.getLast_mem h.1)).1⟩

theorem Trimmed.append {t u : List Char} (ht : Trimmed t) (hu : Trimmed u) (v : List Char) : Trimmed (t ++ v ++ u) := by
  obtain ⟨⟨c, hfirst, hc⟩, -⟩ := ht
  obtain ⟨-, d, hlast, hd⟩ := hu
  exact ⟨⟨c, by simp [hfirst], hc⟩, d, by simp [hlast], hd⟩

theorem Trimmed.moreOperands {t : List Char} (ht : Trimmed t) {as : List (List Char)} (h : ∀ a ∈ as, IsToken a) :
    Trimmed (t ++ moreOperands as) := by
  induction as generalizing t with
  | nil => simpa [Machine.moreOperands] using ht
  | cons a as ih =>
    obtain ⟨ha, has⟩ := List.forall_mem_cons.1 h
    simpa [Machine.moreOperands] using ih (ht.append ha.trimmed [',', ' ']) has

theorem operandTexts_operandsText {as : List (List Char)} (h : ∀ a ∈ as, IsToken a) :
    operandTexts (operandsText as) = as := by
  cases as with
  | nil => rfl
  | cons a as =>
    obtain ⟨ha, has⟩ := List.forall_mem_cons.1 h
    have htrim : trimBlanks (operandsText (a :: as)) = a ++ moreOperands as :=
      trimBlanks_of_trimmed (ha.trimmed.moreOperands has)
    rw [operandTexts, htrim, if_neg (by simp [ha.1]), splitAtCommas_operandsText h, List.map_map]
    exact (List.map_congr_left fun b hb => trimBlanks_of_trimmed (h b hb).trimmed).trans (List.map_id _)

theorem mem_operandsText {as : List (List Char)} {c : Char} (h : c ∈ operandsText as) :
    c = ' ' ∨ c = ',' ∨ ∃ a ∈ as, c ∈ a := by
  cases as with
  | nil => exact absurd h List.not_mem_nil
  | cons a as =>
    simp only [operandsText, moreOperands, List.mem_cons, List.mem_append, List.mem_flatMap, List.not_mem_nil] at h
    grind

theorem trimmed_line {m : List Char} {as : List (List Char)} (hm : IsToken m) (has : ∀ a ∈ as, IsToken a) :
    Trimmed (m ++ operandsText as) := by
  cases as with
  | nil => simpa [operandsText] using hm.trimmed
  | cons a as =>
    obtain ⟨ha, has⟩ := List.forall_mem_cons.1 has
    simpa [operandsText] using (hm.trimmed.append ha.trimmed [' ']).moreOperands has

/-! ### Assembling -/

/-- The mnemonic ends at the first blank. -/
theorem span_line {m : List Char} (hm : IsToken m) (as : List (List Char)) :
    (m ++ operandsText as).takeWhile (fun c => !isBlank c) = m ∧
      (m ++ operandsText as).dropWhile (fun c => !isBlank c) = operandsText as := by
  have hnotBlank : ∀ c ∈ m, (!isBlank c) = true := fun c hc => by simp [(hm.plain c hc).1]
  rw [List.takeWhile_append_of_pos hnotBlank, List.dropWhile_append_of_pos hnotBlank]
  cases as with
  | nil => exact ⟨List.append_nil m, rfl⟩
  | cons a as => exact ⟨List.append_nil m, rfl⟩

/-- A line of a mnemonic and operands is taken apart into them (R73). -/
theorem assemble_line {m : List Char} {as : List (List Char)} (hm : IsToken m) (has : ∀ a ∈ as, IsToken a) :
    assemble (m ++ operandsText as) = buildCommand (m.map Char.toUpper) as := by
  have hcomment : (m ++ operandsText as).takeWhile (· != ';') = m ++ operandsText as := by
    refine List.takeWhile_eq_self_iff.2 fun c hc => bne_iff_ne.2 ?_
    rcases List.mem_append.1 hc with hc | hc
    · exact (hm.plain c hc).2.2
    rcases mem_operandsText hc with rfl | rfl | ⟨a, ha, hc⟩
    · decide
    · decide
    · exact ((has a ha).plain c hc).2.2
  obtain ⟨hmnemonic, hoperands⟩ := span_line hm as
  simp only [assemble, hcomment, trimBlanks_of_trimmed (trimmed_line hm has), hmnemonic, hoperands,
    operandTexts_operandsText has]

/-- Settles O7: the parts of the canonical disassembly are the mnemonic and the fields, and each field reads back. -/
theorem assembleDisassemble : Obligations.AssembleDisassemble := by
  intro i hwf
  rw [disassemble, decode_encode hwf]
  show assemble (commandText i) = .ok i
  rw [commandText_eq, assemble_line (isToken_mnemonic i) (isToken_operandFields i), toUpper_mnemonic]
  cases i with
  | add a b | mul a b | div a b => simp [buildCommand, mnemonic, operandFields, twoBytes, byteOperand_hexField]
  | inv a | mac a => simp [buildCommand, mnemonic, operandFields, oneByte, byteOperand_hexField]
  | swid n => simp [buildCommand, mnemonic, operandFields, oneWidth, widthOperand_hexField (of_decide_eq_true hwf)]
  | sclr | sins | ssol => simp [buildCommand, mnemonic, operandFields, noOperand]

end Sys2Proof.Machine
end

section
/-! PROOFS. What MAC does to memory, from its issue to its completion (41_field_buffer.md R89). -/

namespace Sys2Proof.Machine

/-- Memory after R89's loop on the elements 0 to `n - 1`. -/
def macMemory (p : BitVec 9) (c : Byte) (d r : Nat) (m : Memory) : Nat → Memory
  | 0 => m
  | n + 1 =>
    (macMemory p c d r m n).write (d + n)
      (gfAdd ((macMemory p c d r m n).read (d + n)) (gfMul p c ((macMemory p c d r m n).read (r + n))))

/-- A MAC in flight as `f` that has handled `n` elements whole, with memory `m` (R44). -/
def macProgress (f : InFlight) (m : Memory) (n : Nat) : InFlight × Memory :=
  ({ f with made := 3 * n, fetched := [] }, m)

/-- The three accesses of one element. -/
theorem macAccess_element (p : BitVec 9) (c : Byte) (f : InFlight) (m : Memory) (n : Nat) :
    (macAccess p c)^[3] (macProgress f m n) =
      macProgress f (m.write (f.dstNat + n)
        (gfAdd (m.read (f.dstNat + n)) (gfMul p c (m.read (f.srcNat + n))))) (n + 1) := by
  have h0 : 3 * n % 3 = 0 := by omega
  have h1 : (3 * n + 1) % 3 = 1 := by omega
  have h2 : (3 * n + 2) % 3 = 2 := by omega
  have d0 : 3 * n / 3 = n := by omega
  have d1 : (3 * n + 1) / 3 = n := by omega
  have d2 : (3 * n + 2) / 3 = n := by omega
  simp [macAccess, macProgress, fetchByte, storeByte, InFlight.dstNat, InFlight.srcNat, *, Nat.mul_add]

/-- The accesses of a MAC that has made none (R89). -/
theorem runAccesses_macAccess (p : BitVec 9) (c : Byte) {f : InFlight} (m : Memory) (hmade : f.made = 0)
    (hheld : f.fetched = []) (n : Nat) :
    runAccesses (macAccess p c) (3 * n) f m = macProgress f (macMemory p c f.dstNat f.srcNat m n) n := by
  have hstart : (f, m) = macProgress f m 0 := by
    rw [macProgress, Nat.mul_zero, ← hmade, ← hheld]
  rw [runAccesses, hmade, Nat.sub_zero, hstart]
  induction n with
  | zero => rfl
  | succ n ih => rw [Nat.mul_succ, Nat.add_comm, Function.iterate_add_apply, ih, macAccess_element]; rfl

/-- R89, byte by byte: where the buffers are the same or apart, the loop reads every byte before it writes it. -/
theorem read_macMemory (p : BitVec 9) (c : Byte) (d r : Nat) (m : Memory) {n : Nat} (h : overlapping d r n = false)
    (a : Nat) :
    (macMemory p c d r m n).read a =
      if d ≤ a ∧ a < d + n then gfAdd (m.read a) (gfMul p c (m.read (r + (a - d)))) else m.read a := by
  rw [← Bool.not_eq_true, overlapping_iff] at h
  induction n generalizing a with
  | zero => rw [if_neg (by omega)]; rfl
  | succ n ih =>
    have ih := ih (by omega)
    have hdst : (macMemory p c d r m n).read (d + n) = m.read (d + n) := by rw [ih, if_neg (by omega)]
    have hsrc : (macMemory p c d r m n).read (r + n) = m.read (r + n) := by rw [ih, if_neg (by omega)]
    rw [macMemory, Memory.read_write, hdst, hsrc]
    by_cases hlast : a = d + n
    · rw [if_pos hlast, if_pos (by omega), hlast, Nat.add_sub_cancel_left]
    · rw [if_neg hlast, ih]
      exact if_congr (by omega) rfl rfl

/-- The registers describe buffers that pass MAC's checks (R89). -/
def State.MacFits (s : State) : Prop :=
  s.dst.toNat + s.len.toNat ≤ s.cfg.memSize ∧ s.src.toNat + s.len.toNat ≤ s.cfg.memSize ∧
    overlapping s.dst.toNat s.src.toNat s.len.toNat = false

/-- The state a MAC on the buffers of the registers leaves when its checks pass (R89, R107). -/
def State.afterMac (c : Byte) (s : State) : State :=
  (s.setMem (macMemory s.cfg.fieldPoly c s.dst.toNat s.src.toNat s.mem s.len.toNat)).successCompletion

/-- A command just issued, and one that is not issued yet, starts from the registers (R44, log 3). -/
theorem State.JustIssued.flight_eq {s : State} (h : s.JustIssued) (i : Instr) :
    ∃ w, s.flight i = s.freshFlight w := by
  cases hf : s.inflight with
  | none => exact ⟨_, flight_none s i hf⟩
  | some f => exact ⟨f.word, (flight_some s i f hf).trans (h f hf)⟩

/-- R89: a MAC whose checks pass, from its issue. -/
theorem exec_mac {s : State} (h : s.JustIssued) (hfits : s.MacFits) (c : Byte) :
    exec (.mac c) s = .next (s.afterMac c) := by
  obtain ⟨w, hw⟩ := h.flight_eq (.mac c)
  have herr : errorOf (.mac c) s (s.freshFlight w) = none := (errorOf_mac_eq_none_iff c s (s.freshFlight w)).2 hfits
  have hrun := runAccesses_macAccess s.cfg.fieldPoly c (f := s.freshFlight w) s.mem rfl rfl s.len.toNat
  rw [exec_eq_conclude, hw, herr, conclude_none, commandEffects, remainingAccesses, hw, accessTotal_mac c s _ herr]
  exact congrArg (fun fm => Host.Outcome.next (s.setMem fm.2).successCompletion) hrun

/-- `m'` holds `value i` in the `i`-th of the `n` bytes from `d` on, and what `m` holds in every other byte. -/
def StoresBuffer (m m' : Memory) (d n : Nat) (value : Nat → Byte) : Prop :=
  (∀ i, i < n → m'.read (d + i) = value i) ∧ ∀ a, ¬ (d ≤ a ∧ a < d + n) → m'.read a = m.read a

/-- R89: `dst[i] <- dst[i] ^ gf_mul(c, src[i])`. -/
theorem storesBuffer_afterMac {s : State} (hfits : s.MacFits) (c : Byte) :
    StoresBuffer s.mem (s.afterMac c).mem s.dst.toNat s.len.toNat fun i =>
      gfAdd (s.mem.read (s.dst.toNat + i)) (gfMul s.cfg.fieldPoly c (s.mem.read (s.src.toNat + i))) := by
  obtain ⟨-, -, hlap⟩ := hfits
  have hread := read_macMemory s.cfg.fieldPoly c s.dst.toNat s.src.toNat s.mem hlap
  refine ⟨fun i hi => ?_, fun a ha => (hread a).trans (if_neg ha)⟩
  have hbyte := hread (s.dst.toNat + i)
  rwa [if_pos (by omega), Nat.add_sub_cancel_left] at hbyte

/-- R90: on one buffer MAC multiplies every byte by `c ^ 0x01`. -/
theorem gfAdd_gfMul_self (p : BitVec 9) (c x : Byte) : gfAdd x (gfMul p c x) = gfMul p (c ^^^ 0x01#8) x := by
  rw [xor_gfMul, one_gfMul, gfAdd, BitVec.xor_comm]

end Sys2Proof.Machine
end

section
/-! PROOFS. The pseudo-instructions, as the host accesses they expand to (30_encoding.md R74, R75). -/

namespace Sys2Proof.Machine

/-! ### The host's accesses, one after the other -/

theorem commandEffects_setTurns (i : Instr) (s : State) (ts : List Turn) :
    commandEffects i (s.setTurns ts) = (commandEffects i s).setTurns ts := by
  cases i <;> rfl

/-- The turns to come bear on no command. -/
theorem exec_setTurns {i : Instr} {s t : State} (h : exec i s = .next t) (ts : List Turn) :
    exec i (s.setTurns ts) = .next (t.setTurns ts) := by
  obtain ⟨u, hu, hmap⟩ := exec_map (i := i) (s := s) (u := s.setTurns ts) (State.setTurns ts)
    (errorOf_congr i rfl rfl rfl rfl rfl rfl) (fun _ => rfl) (by rw [commandEffects_setTurns]; rfl)
  cases h.symm.trans hu
  exact hmap

/-- `t` is an idle unit with the parameters and the operand registers of `s`, `rst` deasserted: the host can go on. -/
structure State.Follows (t s : State) : Prop where
  cfg : t.cfg = s.cfg
  rst : t.rst = false
  idle : t.inflight = none
  dst : t.dst = s.dst
  src : t.src = s.src
  len : t.len = s.len

theorem State.Follows.macFits {s t : State} (h : t.Follows s) (hfits : s.MacFits) : t.MacFits := by
  rwa [State.MacFits, h.cfg, h.dst, h.src, h.len]

/-- No command writes an operand register or drives `rst`. -/
theorem follows_of_exec {i : Instr} {s t : State} (hrst : s.rst = false) (h : exec i s = .next t) : t.Follows s := by
  rcases exec_next h with ⟨e, -, rfl⟩ | ⟨-, rfl⟩
  · exact ⟨rfl, hrst, rfl, rfl, rfl, rfl⟩
  · cases i <;> exact ⟨rfl, hrst, rfl, rfl, rfl, rfl⟩

/-- The SRC register written (R32). -/
def State.setSrc (v : Word) (s : State) : State := { s with src := v }

/-- A list of turns taken one after the other from a state. -/
def runTurns (ts : List Turn) (s : State) : Host.Outcome State Fault Refusal :=
  Host.Core.run Sys2Proof.core ts.length (s.setTurns ts)

theorem run_eq_runTurns {s : State} {ts : List Turn} (h : s.turns = ts) :
    Host.Core.run Sys2Proof.core s.turns.length s = runTurns ts s := by
  subst h
  rfl

theorem runTurns_cons {turn : Turn} {ts : List Turn} {s t : State}
    (h : step (s.setTurns (turn :: ts)) = .next (t.setTurns ts)) : runTurns (turn :: ts) s = runTurns ts t :=
  run_succ h ts.length

section Accesses
variable {s : State} (hrst : s.rst = false) (ts : List Turn)
include hrst

theorem runTurns_hostWr (r : Reg) (v : Word) : runTurns (hostWr s.cfg r v :: ts) s = runTurns ts (s.writeReg r v) :=
  runTurns_cons ((step_busWrite_reg (s := s.setTurns (hostWr s.cfg r v :: ts)) hrst rfl).trans
    (congrArg Host.Outcome.next (writeReg_setTurns s ts r v)))

theorem runTurns_hostRd (r : Reg) :
    runTurns (hostRd s.cfg r :: ts) s = runTurns ts (s.setReadData (s.readReg r)) := by
  refine runTurns_cons ((step_busRead_reg (s := s.setTurns (hostRd s.cfg r :: ts)) hrst rfl).trans ?_)
  cases r <;> rfl

variable (hidle : s.inflight = none)
include hidle

/-- A command issued by the host, completed, and its completion seen (R74). -/
theorem runTurns_hostCommand {t : State} {i : Instr} (hwf : i.wf = true)
    (hexec : exec i (s.issue (encode i)) = .next t) :
    ∃ u, runTurns (hostCommand s.cfg i ++ ts) s = runTurns ts u ∧ u.Follows s ∧ u.mem = t.mem ∧
      u.result = t.result := by
  have hd := decode_encode hwf
  obtain ⟨hcfg, hrst', hidle', hdst, hsrc, hlen⟩ := follows_of_exec (s := s.issue (encode i)) hrst hexec
  have hcommand (us : List Turn) : runTurns (.command :: us) (s.issue (encode i)) = runTurns us t :=
    runTurns_cons ((step_cons _ .command us rfl).trans
      ((engineRun_eq_exec (s := (s.issue (encode i)).setTurns us) rfl hd).trans (exec_setTurns hexec us)))
  refine ⟨t.setReadData (t.readReg .status), ?_, ⟨hcfg, hrst', hidle', hdst, hsrc, hlen⟩, rfl, rfl⟩
  calc runTurns (hostCommand s.cfg i ++ ts) s
      = runTurns (.command :: hostRd s.cfg .status :: ts) (s.writeReg .cmd (encode i)) := runTurns_hostWr hrst _ _ _
    _ = runTurns (.command :: hostRd s.cfg .status :: ts) (s.issue (encode i)) := by
      rw [State.writeReg, unlessBusy_idle _ _ (s.busy_none hidle)]
    _ = runTurns (hostRd t.cfg .status :: ts) t := by rw [hcommand, hcfg, State.issue_cfg]
    _ = runTurns ts (t.setReadData (t.readReg .status)) := runTurns_hostRd hrst' _ _

theorem runTurns_hostMac (hfits : s.MacFits) (c : Byte) :
    ∃ u, runTurns (hostCommand s.cfg (.mac c) ++ ts) s = runTurns ts u ∧ u.Follows s ∧
      StoresBuffer s.mem u.mem s.dst.toNat s.len.toNat fun i =>
        gfAdd (s.mem.read (s.dst.toNat + i)) (gfMul s.cfg.fieldPoly c (s.mem.read (s.src.toNat + i))) := by
  have hissued : (s.issue (encode (.mac c))).JustIssued := fun f hf => by cases hf; rfl
  obtain ⟨u, hrun, hu, hmem, -⟩ := runTurns_hostCommand hrst ts hidle rfl (exec_mac hissued hfits c)
  exact ⟨u, hrun, hu, hmem ▸ storesBuffer_afterMac hfits c⟩

/-- `WR SRC, v` and `MAC c` (R75). -/
theorem runTurns_srcMac {v : Word} (hfits : (s.setSrc v).MacFits) (c : Byte) :
    ∃ u, runTurns (hostWr s.cfg .src v :: (hostCommand s.cfg (.mac c) ++ ts)) s = runTurns ts u ∧
      u.Follows (s.setSrc v) ∧ StoresBuffer s.mem u.mem s.dst.toNat s.len.toNat fun i =>
        gfAdd (s.mem.read (s.dst.toNat + i)) (gfMul s.cfg.fieldPoly c (s.mem.read (v.toNat + i))) := by
  rw [runTurns_hostWr hrst, State.writeReg, unlessBusy_idle _ _ (s.busy_none hidle)]
  exact runTurns_hostMac (s := s.setSrc v) hrst ts hidle hfits c

end Accesses

/-! ### The pseudo-instructions -/

theorem overlapping_self (d n : Nat) : overlapping d d n = false := by simp [overlapping]

theorem overlapping_of_apart {d r n : Nat} (h : d + n ≤ r ∨ r + n ≤ d) : overlapping d r n = false := by
  rw [← Bool.not_eq_true, overlapping_iff]
  omega

section Pseudo
variable {s : State} (hidle : s.inflight = none) (hrst : s.rst = false)
  (hdst : s.dst.toNat + s.len.toNat ≤ s.cfg.memSize)
include hidle hrst hdst

/-- BSCALE is MAC on one buffer (R75, R90). -/
theorem bscale_effect (k : Byte) :
    ∃ t, runTurns (bscaleTurns s.cfg s.dst k) s = .next t ∧
      StoresBuffer s.mem t.mem s.dst.toNat s.len.toNat fun i =>
        gfMul s.cfg.fieldPoly k (s.mem.read (s.dst.toNat + i)) := by
  have hfits : (s.setSrc s.dst).MacFits := ⟨hdst, hdst, overlapping_self _ _⟩
  obtain ⟨t, hmac, -, hstores⟩ := runTurns_srcMac hrst [] hidle hfits (k ^^^ 0x01#8)
  simp only [gfAdd_gfMul_self, BitVec.xor_assoc, BitVec.xor_self, BitVec.xor_zero] at hstores
  exact ⟨t.setTurns [], hmac, hstores⟩

/-- BDIV is BSCALE by the inverse that INV leaves in RESULT (R75, R88). -/
theorem bdiv_effect {k : Byte} (hk : k ≠ 0) :
    ∃ t, runTurns ((Pseudo.bdiv k).turns s) s = .next t ∧
      StoresBuffer s.mem t.mem s.dst.toNat s.len.toNat fun i =>
        gfDiv s.cfg.fieldPoly (s.mem.read (s.dst.toNat + i)) k := by
  have herr : invError k = none := by simpa [invError] using hk
  have hinv : exec (.inv k) (s.issue (encode (.inv k))) =
      .next (s.setResult (gfInv s.cfg.fieldPoly k)).successCompletion := by
    rw [exec, execInv, herr]
    rfl
  obtain ⟨u, hcommand, hu, hmem, -⟩ := runTurns_hostCommand hrst
    (hostRd s.cfg .result :: bscaleTurns s.cfg s.dst (gfInv s.cfg.fieldPoly k)) hidle rfl hinv
  have hresult := runTurns_hostRd hu.rst (bscaleTurns u.cfg u.dst (gfInv s.cfg.fieldPoly k)) .result
  obtain ⟨t, hscale, hstores⟩ := bscale_effect (s := u.setReadData (u.readReg .result)) hu.idle hu.rst
    (by simpa [hu.cfg, hu.dst, hu.len] using hdst) (gfInv s.cfg.fieldPoly k)
  have hturns := hresult.trans hscale
  simp only [State.setReadData_cfg, State.setReadData_dst, State.setReadData_len, State.setReadData_mem, hu.cfg, hu.dst,
    hu.len, hmem, gfMul_comm _ (gfInv _ _)] at hturns hstores
  exact ⟨t, hcommand.trans hturns, hstores⟩

/-- BCOPY clears the destination, then adds the source to it (R75, log 18). -/
theorem bcopy_effect (hsrc : s.src.toNat + s.len.toNat ≤ s.cfg.memSize)
    (hapart : s.dst.toNat + s.len.toNat ≤ s.src.toNat ∨ s.src.toNat + s.len.toNat ≤ s.dst.toNat) :
    ∃ t, runTurns (Pseudo.bcopy.turns s) s = .next t ∧ t.src = s.src ∧
      StoresBuffer s.mem t.mem s.dst.toNat s.len.toNat fun i => s.mem.read (s.src.toNat + i) := by
  have hclear : ((s.setReadData (s.readReg .src)).setSrc s.dst).MacFits := ⟨hdst, hdst, overlapping_self _ _⟩
  obtain ⟨u, hfirst, hu, hcleared, hkept⟩ := runTurns_srcMac (s := s.setReadData (s.readReg .src)) hrst
    (hostWr s.cfg .src s.src :: hostCommand s.cfg (.mac 0x01#8)) hidle hclear 0x01#8
  have hback : (u.setSrc s.src).Follows s := ⟨hu.cfg, hu.rst, hu.idle, hu.dst, rfl, hu.len⟩
  obtain ⟨t, hsecond, ht, hstored, hkept'⟩ := runTurns_srcMac hu.rst [] hu.idle
    (hback.macFits ⟨hdst, hsrc, overlapping_of_apart hapart⟩) 0x01#8
  have hturns := ((runTurns_hostRd hrst _ .src).trans hfirst).trans (hu.cfg ▸ hsecond)
  have hdst' : u.dst = s.dst := hu.dst
  have hlen' : u.len = s.len := hu.len
  simp only [hdst', hlen', one_gfMul] at hstored hkept'
  refine ⟨t.setTurns [], hturns, ht.src, fun i hi => ?_, fun a ha => (hkept' a ha).trans (hkept a ha)⟩
  have hzero : u.mem.read (s.dst.toNat + i) = 0x00#8 :=
    (hcleared i hi).trans ((gfAdd_gfMul_self _ _ _).trans (zero_gfMul _ _))
  have houtside : ¬ (s.dst.toNat ≤ s.src.toNat + i ∧ s.src.toNat + i < s.dst.toNat + s.len.toNat) := by omega
  have hsource : u.mem.read (s.src.toNat + i) = s.mem.read (s.src.toNat + i) := hkept _ houtside
  rw [State.setTurns_mem, hstored i hi, hzero, hsource]
  exact BitVec.zero_xor

end Pseudo

/-- Settles O57: the expansions are MACs on one buffer or on two that do not overlap, issued one after the other. -/
theorem pseudoInstructionEffects : Obligations.PseudoInstructionEffects := by
  refine ⟨fun s a b hidle hrst hturns => ?_, ?_⟩
  · rw [run_eq_runTurns hturns]
    obtain ⟨u, hadd, -, hmem, hresult⟩ := runTurns_hostCommand hrst [] hidle (i := .add a b) rfl rfl
    exact ⟨u.setTurns [], hadd, hresult, hmem⟩
  rintro s _ _ _ hidle hrst rfl rfl rfl hdst hsrc
  refine ⟨fun hturns => ?_, fun k hturns => ?_, fun k hk hturns => ?_, fun hapart hturns => ?_,
      fun c hok hturns => ?_⟩ <;>
    rw [run_eq_runTurns hturns]
  -- BZERO is BSCALE 0x00.
  · obtain ⟨t, hrun, hbuffer, hrest⟩ := bscale_effect hidle hrst hdst 0
    exact ⟨t, hrun, fun i hi => (hbuffer i hi).trans (zero_gfMul _ _), hrest⟩
  · exact bscale_effect hidle hrst hdst k
  · exact bdiv_effect hidle hrst hdst hk
  · exact bcopy_effect hidle hrst hdst hsrc hapart
  · have hlap : overlapping s.dst.toNat s.src.toNat s.len.toNat = false := by
      rcases hok with hsame | hapart
      · rw [hsame, overlapping_self]
      · exact overlapping_of_apart hapart
    obtain ⟨u, hmac, -, hstores⟩ := runTurns_hostMac hrst [] hidle ⟨hdst, hsrc, hlap⟩ c
    exact ⟨u.setTurns [], hmac, hstores⟩

end Sys2Proof.Machine
end

section
/-! PROOFS. gf_mul is the product of polynomials over GF(2), reduced modulo FIELD_POLY (40_field_scalar.md R79, R81). -/

namespace Sys2Proof.Machine

open Polynomial

/-! ### The polynomial of a bit vector -/

/-- Bit k is the coefficient of x^k (R79). -/
theorem coeff_bitPoly {n : Nat} (v : BitVec n) (k : Nat) : (bitPoly v).coeff k = if v.getLsbD k then 1 else 0 := by
  have hterm (i : Nat) : (if v.getLsbD i then X ^ i else 0 : (ZMod 2)[X]).coeff k =
      if k = i then if v.getLsbD k then 1 else 0 else 0 := by
    by_cases hki : k = i
    · subst hki
      cases v.getLsbD k <;> simp
    · cases v.getLsbD i <;> simp [coeff_X_pow, hki]
  rw [bitPoly, finsetSum_coeff, Finset.sum_congr rfl fun i _ => hterm i, Finset.sum_ite_eq]
  by_cases hk : k < n
  · rw [if_pos (Finset.mem_range.2 hk)]
  · rw [if_neg (mt Finset.mem_range.1 hk), BitVec.getLsbD_of_ge v k (not_lt.1 hk)]
    rfl

theorem bitPoly_injective {n : Nat} : Function.Injective (bitPoly : BitVec n → (ZMod 2)[X]) := fun v w h => by
  refine BitVec.eq_of_getLsbD_eq fun i _ => ?_
  have hcoeff := congrArg (coeff · i) h
  simp only [coeff_bitPoly] at hcoeff
  cases hv : v.getLsbD i <;> cases hw : w.getLsbD i <;> simp [hv, hw] at hcoeff ⊢

theorem degree_bitPoly_lt {n : Nat} (v : BitVec n) : (bitPoly v).degree < n := by
  refine (degree_lt_iff_coeff_zero _ _).2 fun k hk => ?_
  rw [coeff_bitPoly, BitVec.getLsbD_of_ge v k hk]
  rfl

/-- R80: addition is that of the polynomials. -/
theorem bitPoly_xor {n : Nat} (v w : BitVec n) : bitPoly (v ^^^ w) = bitPoly v + bitPoly w := by
  ext k
  rw [coeff_add, coeff_bitPoly, coeff_bitPoly, coeff_bitPoly, BitVec.getLsbD_xor]
  cases v.getLsbD k <;> cases w.getLsbD k <;> decide

theorem bitPoly_zero : bitPoly 0x00#8 = 0 := by
  ext k
  rw [coeff_bitPoly, BitVec.getLsbD_zero]
  rfl

/-- A 9-bit polynomial with an x^8 term is x^8 and its low byte (R7). -/
theorem bitPoly_eq_X_pow_add {p : BitVec 9} (hp : p.getLsbD 8 = true) :
    bitPoly p = X ^ 8 + bitPoly (p.setWidth 8) := by
  ext k
  rw [coeff_add, coeff_X_pow, coeff_bitPoly, coeff_bitPoly, BitVec.getLsbD_setWidth]
  rcases lt_trichotomy k 8 with hlt | rfl | hgt
  · simp [hlt, hlt.ne]
  · simp [hp]
  · simp [hgt.ne', hgt.not_gt, BitVec.getLsbD_of_ge p k hgt]

section Reduction
variable {p : BitVec 9} (hp : p.getLsbD 8 = true)
include hp

theorem monic_bitPoly : (bitPoly p).Monic := bitPoly_eq_X_pow_add hp ▸ monic_X_pow_add (degree_bitPoly_lt _)

theorem degree_bitPoly : (bitPoly p).degree = 8 := by
  have hlow : (bitPoly (p.setWidth 8)).degree < (X ^ 8 : (ZMod 2)[X]).degree := by
    rw [degree_X_pow]
    exact degree_bitPoly_lt _
  rw [bitPoly_eq_X_pow_add hp, degree_add_eq_left_of_degree_lt hlow, degree_X_pow]
  rfl

end Reduction

/-! ### The loop of R81, modulo FIELD_POLY -/

/-- A shift to the left drops the x^8 term that multiplication by x makes of the x^7 term. -/
theorem X_mul_bitPoly (t : Byte) : X * bitPoly t = bitPoly (t <<< 1) + if t.getLsbD 7 then X ^ 8 else 0 := by
  ext k
  rw [coeff_add, coeff_bitPoly, BitVec.getLsbD_shiftLeft, apply_ite (coeff · k), coeff_X_pow, coeff_zero]
  cases k with
  | zero => simp
  | succ k =>
    rw [coeff_X_mul, coeff_bitPoly]
    rcases lt_trichotomy k 7 with hlt | rfl | hgt
    · simp [hlt.ne, Nat.succ_lt_succ hlt]
    · simp
    · simp [hgt.ne', BitVec.getLsbD_of_ge t k hgt]

/-- The pair of R81's loop after the indices below `n`. -/
def gfMulLoop (p : BitVec 9) (a b : Byte) (n : Nat) : Byte × Byte :=
  (List.range n).foldl (gfMulStep (p.setWidth 8) b) (0x00#8, a)

theorem gfMulLoop_succ (p : BitVec 9) (a b : Byte) (n : Nat) :
    gfMulLoop p a b (n + 1) = gfMulStep (p.setWidth 8) b (gfMulLoop p a b n) n := by
  rw [gfMulLoop, List.range_succ, List.foldl_append]
  rfl

theorem gfMul_eq_gfMulLoop (p : BitVec 9) (a b : Byte) : gfMul p a b = (gfMulLoop p a b 8).1 := rfl

section Loop
variable {p : BitVec 9} (hp : p.getLsbD 8 = true)
include hp

/-- What R81's loop does to its `t` is multiplication by x, modulo FIELD_POLY. -/
theorem mk_bitPoly_shiftReduce (t : Byte) :
    AdjoinRoot.mk (bitPoly p) (bitPoly (shiftReduce (p.setWidth 8) t)) = AdjoinRoot.mk (bitPoly p) (bitPoly t * X) := by
  rw [mul_comm, X_mul_bitPoly, shiftReduce]
  cases t.getLsbD 7
  · simp
  · have hX : X ^ 8 = bitPoly p + bitPoly (p.setWidth 8) := by
      rw [bitPoly_eq_X_pow_add hp, add_assoc, CharTwo.add_self_eq_zero, add_zero]
    simp [hX, bitPoly_xor]

/-- After `n` indices the loop's `t` is `a` times x^n. -/
theorem mk_bitPoly_gfMulLoop_snd (a b : Byte) (n : Nat) :
    AdjoinRoot.mk (bitPoly p) (bitPoly (gfMulLoop p a b n).2) = AdjoinRoot.mk (bitPoly p) (bitPoly a * X ^ n) := by
  induction n with
  | zero => rw [pow_zero, mul_one]; rfl
  | succ n ih =>
    rw [gfMulLoop_succ, gfMulStep_eq, mk_bitPoly_shiftReduce hp, map_mul, ih, ← map_mul, mul_assoc, pow_succ]

/-- After the indices below `n` the loop has summed `a` times the terms of `b` below x^n. -/
theorem mk_bitPoly_gfMulLoop_fst (a b : Byte) (n : Nat) :
    AdjoinRoot.mk (bitPoly p) (bitPoly (gfMulLoop p a b n).1) =
      AdjoinRoot.mk (bitPoly p) (bitPoly a * ∑ i ∈ Finset.range n, if b.getLsbD i then X ^ i else 0) := by
  induction n with
  | zero => rw [Finset.sum_range_zero, mul_zero]; exact congrArg _ bitPoly_zero
  | succ n ih =>
    rw [Finset.sum_range_succ, mul_add, map_add, ← ih, gfMulLoop_succ, gfMulStep_eq]
    cases b.getLsbD n
    · simp
    · simp [bitPoly_xor, mk_bitPoly_gfMulLoop_snd hp]

end Loop

/-- Settles O13: the loop computes the product modulo FIELD_POLY, and its result has no term to reduce. -/
theorem gfMulIsProductModPoly : Obligations.GfMulIsProductModPoly := by
  intro p hp a b
  have hmk : AdjoinRoot.mk (bitPoly p) (bitPoly (gfMul p a b)) = AdjoinRoot.mk (bitPoly p) (bitPoly a * bitPoly b) := by
    rw [gfMul_eq_gfMulLoop]
    exact mk_bitPoly_gfMulLoop_fst hp a b 8
  have hreduced : (bitPoly (gfMul p a b)).degree < (bitPoly p).degree := by
    rw [degree_bitPoly hp]
    exact degree_bitPoly_lt _
  rw [← (modByMonic_eq_self_iff (monic_bitPoly hp)).2 hreduced]
  exact modByMonic_eq_of_dvd_sub (monic_bitPoly hp) (AdjoinRoot.mk_eq_mk.1 hmk)

end Sys2Proof.Machine
end

section
/-! PROOFS. Multiplication, inverse and division of the field (40_field_scalar.md R82 to R84). -/

namespace Sys2Proof.Machine

/-! ### The inverse, in the field of the bytes -/

namespace FieldModel
variable {p : BitVec 9} {K : Type} [Field K] (φ : FieldModel p K)
include φ

/-- R82: gf_inv is the inverse of the field. -/
theorem value_gfInv (hp : p ∈ legalPolys) {a : Byte} (ha : a ≠ 0x00#8) : φ.value (gfInv p a) = (φ.value a)⁻¹ :=
  eq_inv_of_mul_eq_one_right (by rw [← φ.value_gfMul, gfMul_gfInv hp ha, φ.value_one])

theorem value_iterate_gfMul (a : Byte) (k : Nat) :
    φ.value ((fun t => gfMul p t a)^[k] 0x01) = φ.value a ^ k := by
  induction k with
  | zero => exact φ.value_one.trans (pow_zero _).symm
  | succ k ih => rw [Function.iterate_succ_apply', φ.value_gfMul, ih, pow_succ]

/-- The nonzero elements of a field of 256 elements are a group of 255. -/
theorem value_pow_255 {a : Byte} (ha : a ≠ 0x00#8) : φ.value a ^ 255 = 1 := by
  have : Fintype K := .ofEquiv Byte φ.value
  have hcard : Fintype.card K = 256 := (Fintype.card_congr φ.value).symm.trans FinEnum.card_eq_fintypeCard.symm
  have hpow := FiniteField.pow_card_sub_one_eq_one (φ.value a) (mt (φ.value_eq_zero_iff a).1 ha)
  rwa [hcard] at hpow

end FieldModel

section Inverse
variable {p : BitVec 9} (hp : p ∈ legalPolys) {a b : Byte}
include hp

/-- R84: there are no zero divisors. -/
theorem gfMul_eq_zero_iff : gfMul p a b = 0x00#8 ↔ a = 0x00#8 ∨ b = 0x00#8 := by
  obtain ⟨K, _, ⟨φ⟩⟩ := exists_fieldModel hp
  simp only [← φ.value_eq_zero_iff, φ.value_gfMul, mul_eq_zero]

/-- R82: the inverse is unique. -/
theorem eq_gfInv_of_gfMul_eq_one (h : gfMul p a b = 0x01#8) : b = gfInv p a := by
  obtain ⟨K, _, ⟨φ⟩⟩ := exists_fieldModel hp
  have ha : a ≠ 0x00#8 := by
    rintro rfl
    exact absurd ((zero_gfMul p b).symm.trans h) (by decide)
  refine φ.value.injective ((eq_inv_of_mul_eq_one_right ?_).trans (φ.value_gfInv hp ha).symm)
  rw [← φ.value_gfMul, h, φ.value_one]

/-- R82: the inverse is the power 254. -/
theorem gfInv_eq_iterate (ha : a ≠ 0x00#8) : gfInv p a = (fun t => gfMul p t a)^[254] 0x01 := by
  obtain ⟨K, _, ⟨φ⟩⟩ := exists_fieldModel hp
  refine (eq_gfInv_of_gfMul_eq_one hp (φ.value.injective ?_)).symm
  rw [φ.value_gfMul, φ.value_iterate_gfMul, ← pow_succ', φ.value_pow_255 ha, φ.value_one]

end Inverse

/-! ### Division -/

section Division
variable {p : BitVec 9} (hp : p ∈ legalPolys) {b : Byte} (hb : b ≠ 0x00#8)
include hp

theorem gfInv_one : gfInv p 0x01#8 = 0x01#8 := (eq_gfInv_of_gfMul_eq_one hp (one_gfMul p _)).symm

theorem gfDiv_one (a : Byte) : gfDiv p a 0x01#8 = a := by rw [gfDiv, gfInv_one hp, gfMul_one]

include hb

theorem gfInv_gfInv : gfInv p (gfInv p b) = b :=
  (eq_gfInv_of_gfMul_eq_one hp ((gfMul_comm p _ b).trans (gfMul_gfInv hp hb))).symm

theorem gfDiv_gfMul (a : Byte) : gfDiv p (gfMul p a b) b = a := by
  rw [gfDiv, gfMul_assoc, gfMul_gfInv hp hb, gfMul_one]

theorem gfMul_gfDiv (a : Byte) : gfMul p (gfDiv p a b) b = a := by
  rw [gfDiv, gfMul_right_comm, ← gfDiv, gfDiv_gfMul hp hb]

end Division

theorem zero_gfDiv (p : BitVec 9) (b : Byte) : gfDiv p 0x00#8 b = 0x00#8 := zero_gfMul p _

/-! ### The obligations -/

/-- Settles O14: exclusive OR is an additive group, and the laws of the product are those of the field. -/
theorem fieldRingLaws : Obligations.FieldRingLaws :=
  ⟨fun a b c => ⟨BitVec.xor_zero, BitVec.xor_self, BitVec.xor_comm a b, BitVec.xor_assoc a b c, rfl⟩,
    fun p hp a b c => ⟨gfMul_comm p a b, gfMul_assoc p a b c, gfMul_one p a, gfMul_zero p a, gfMul_eq_zero_iff hp,
      gfMul_gfAdd p a b c⟩⟩

/-- Settles O15: in the field of 256 elements the inverse is the power 254. -/
theorem inverseIsUnique : Obligations.InverseIsUnique := fun _ hp _ ha =>
  ⟨gfMul_gfInv hp ha, fun _ => eq_gfInv_of_gfMul_eq_one hp, gfInv_eq_iterate hp ha⟩

/-- Settles O16: the factors `b` and gf_inv(b) cancel. -/
theorem divisionLaws : Obligations.DivisionLaws := fun p hp a b hb =>
  ⟨rfl, gfDiv_gfMul hp hb a, gfMul_gfDiv hp hb a, zero_gfDiv p b, gfDiv_one hp a, gfMul_gfInv hp hb,
    gfInv_gfInv hp hb, gfInv_one hp⟩

end Sys2Proof.Machine
end

section
/-! PROOFS. Products without reduction, and by x (40_field_scalar.md R84). -/

namespace Sys2Proof.Machine

open Polynomial

/-- Only FIELD_POLY[7:0] bears on a product (R81). -/
theorem gfMul_congr {p q : BitVec 9} (h : p.setWidth 8 = q.setWidth 8) (a b : Byte) : gfMul p a b = gfMul q a b := by
  rw [gfMul, h, ← gfMul]

theorem natDegree_bitPoly_le {n m : Nat} {v : BitVec n} (h : v.toNat < 2 ^ (m + 1)) : (bitPoly v).natDegree ≤ m := by
  refine natDegree_le_iff_coeff_eq_zero.2 fun k hk => ?_
  have hbit : v.getLsbD k = false := Nat.testBit_lt_two_pow (h.trans_le (Nat.pow_le_pow_right two_pos hk))
  rw [coeff_bitPoly, hbit]
  rfl

section WithoutReduction
variable {a b : Byte} {m n : Nat} (ha : a.toNat < 2 ^ (m + 1)) (hb : b.toNat < 2 ^ (n + 1)) (hmn : m + n < 8)
include ha hb hmn

/-- A product of degree below 8 is that of the polynomials (R84). -/
theorem bitPoly_gfMul_of_no_reduction {p : BitVec 9} (hp : p.getLsbD 8 = true) :
    bitPoly (gfMul p a b) = bitPoly a * bitPoly b := by
  have hdegree : (bitPoly a * bitPoly b).degree ≤ ((m + n : Nat) : WithBot Nat) :=
    degree_le_of_natDegree_le (natDegree_mul_le_of_le (natDegree_bitPoly_le ha) (natDegree_bitPoly_le hb))
  rw [gfMulIsProductModPoly p hp, modByMonic_eq_self_iff (monic_bitPoly hp), degree_bitPoly hp]
  exact hdegree.trans_lt (Nat.cast_lt.2 hmn)

/-- R84: it does not depend on FIELD_POLY, not even on the x^8 term. -/
theorem gfMul_eq_of_no_reduction (p q : BitVec 9) : gfMul p a b = gfMul q a b := by
  have htop (r : BitVec 9) : (r ||| 0x100#9).getLsbD 8 = true := by simp
  have hlow (r : BitVec 9) : gfMul r a b = gfMul (r ||| 0x100#9) a b := gfMul_congr (by simp [BitVec.setWidth_or]) a b
  rw [hlow p, hlow q]
  apply bitPoly_injective
  rw [bitPoly_gfMul_of_no_reduction ha hb hmn (htop p), bitPoly_gfMul_of_no_reduction ha hb hmn (htop q)]

end WithoutReduction

/-- x times x^7 is x^8, which reduces to FIELD_POLY[7:0] (R84). -/
theorem two_gfMul_top (p : BitVec 9) : gfMul p 0x02 0x80 = p.setWidth 8 := by
  rw [gfMul_comm, gfMul_two, if_pos (by decide)]
  exact BitVec.zero_xor

theorem legalPolys_getLsbD_zero {p : BitVec 9} (hp : p ∈ legalPolys) : p.getLsbD 0 = true := by
  have hall : ∀ q ∈ legalPolys, q.getLsbD 0 = true := by decide +kernel
  exact hall p hp

/-- With an x^8 term and a constant term in FIELD_POLY, x times (FIELD_POLY ^ 1) / x is 1: shifting it left and reducing
it leaves the constant term alone (R84). -/
theorem two_gfMul_shift {p : BitVec 9} (htop : p.getLsbD 8 = true) (hodd : p.getLsbD 0 = true) :
    gfMul p 0x02 (((p ^^^ 0x001) >>> 1).setWidth 8) = 0x01#8 := by
  have hmsb : (((p ^^^ 0x001) >>> 1).setWidth 8).msb = true := by
    simpa [BitVec.msb_eq_getLsbD_last] using htop
  rw [gfMul_comm, gfMul_two, if_pos hmsb]
  refine BitVec.eq_of_getLsbD_eq fun i hi => ?_
  cases i with
  | zero => simpa using hodd
  | succ i => simp [hi, Nat.add_comm 1 i]

/-- R84: the inverse of x. -/
theorem gfInv_two {p : BitVec 9} (hp : p ∈ legalPolys) : (gfInv p 0x02).setWidth 9 = (p ^^^ 0x001) >>> 1 := by
  rw [← eq_gfInv_of_gfMul_eq_one hp (two_gfMul_shift (legalPolys_getLsbD_eight hp) (legalPolys_getLsbD_zero hp))]
  have hfits : ((p ^^^ 0x001) >>> 1).toNat < 2 ^ 8 := by
    have := (p ^^^ 0x001).isLt
    rw [BitVec.toNat_ushiftRight, Nat.shiftRight_eq_div_pow]
    omega
  refine BitVec.eq_of_toNat_eq ?_
  rw [BitVec.toNat_setWidth, BitVec.toNat_setWidth, Nat.mod_eq_of_lt hfits,
    Nat.mod_eq_of_lt (hfits.trans (by decide))]

/-- Settles O17: below degree 8 there is nothing to reduce, and x times x^7 is reduced once. -/
theorem productsWithoutReduction : Obligations.ProductsWithoutReduction := by
  refine ⟨fun p q a b m n ha hb hmn => gfMul_eq_of_no_reduction ha hb hmn p q,
    fun p => ⟨?_, two_gfMul_top p⟩, fun p hp => gfInv_two hp⟩
  calc gfMul p 0x03 0x07 = gfMul 0x11D 0x03 0x07 :=
        gfMul_eq_of_no_reduction (m := 1) (n := 2) (by decide) (by decide) (by decide) p 0x11D
    _ = 0x09 := by decide

end Sys2Proof.Machine
end

section
/-! PROOFS. The scalar commands: what ADD, MUL, DIV and INV write, their words (40_field_scalar.md R85 to R88), and the
frame of the commands that store nothing. -/

namespace Sys2Proof.Machine

/-- R70 for the row of a command, `zeros` being the 1 bits of its mask below the opcode. -/
theorem zeroFieldsChecked_row (i : Instr) {zeros : Word} (hmask : tableMask i &&& zeros = zeros)
    (hmatch : tableMatch i &&& zeros = 0#32) : zeroFieldsChecked (rowOpcode i) zeros := by
  intro w hopc hzeros
  refine mustBeZeroFieldsChecked i w (hopc.trans (opcField_tableMatch i).symm) fun hselects => hzeros ?_
  calc w &&& zeros = (w &&& tableMask i) &&& zeros := by rw [BitVec.and_assoc, hmask]
    _ = 0#32 := by rw [hselects, hmatch]

/-- The inverse of x under the polynomial of the worked examples. -/
theorem gfInv_two_reference : gfInv 0x11D 0x02 = 0x8E :=
  (eq_gfInv_of_gfMul_eq_one (by decide) (by decide)).symm

/-- Settles O18: ADD checks nothing, and its word is that of its row. -/
theorem addWritesXor : Obligations.AddWritesXor :=
  ⟨fun _ _ _ => rfl, fun _ => ⟨BitVec.xor_self, BitVec.xor_zero⟩, fun a b => decode_encode (i := .add a b) rfl,
    zeroFieldsChecked_row (.add 0 0) (by decide) (by decide), by decide⟩

/-- Settles O19: MUL checks nothing, and its corner cases are the laws of the product. -/
theorem mulWritesProduct : Obligations.MulWritesProduct :=
  ⟨fun _ _ _ => rfl,
    fun p a b => ⟨gfMul_zero p a, zero_gfMul p b, gfMul_one p a, two_gfMul_top p, gfMul_comm p a b⟩,
    fun p q _ _ _ _ ha hb hmn => gfMul_eq_of_no_reduction ha hb hmn p q,
    fun a b => decode_encode (i := .mul a b) rfl,
    zeroFieldsChecked_row (.mul 0 0) (by decide) (by decide), by decide⟩

theorem divError_of_ne {b : Byte} (hb : b ≠ 0x00#8) : divError b = none := by simpa [divError] using hb

theorem invError_of_ne {a : Byte} (ha : a ≠ 0x00#8) : invError a = none := by simpa [invError] using ha

/-- Settles O20: DIV checks its divisor, and its corner cases are the laws of division. -/
theorem divWritesQuotient : Obligations.DivWritesQuotient := by
  refine ⟨fun a b s hb => ?_, fun a s => rfl,
    fun p hp a b => ⟨fun _ => zero_gfDiv p b, gfDiv_one hp a, fun ha => gfMul_gfInv hp ha⟩,
    fun a b => decode_encode (i := .div a b) rfl,
    zeroFieldsChecked_row (.div 0 0) (by decide) (by decide), ?_⟩
  · rw [exec, execDiv, divError_of_ne hb]
    rfl
  · rw [gfDiv, gfInv_two_reference]
    exact one_gfMul _ _

/-- Settles O21: INV checks its operand, and its corner cases are the laws of the inverse. -/
theorem invWritesInverse : Obligations.InvWritesInverse := by
  refine ⟨fun a s ha => ?_, fun s => rfl,
    fun p hp => ⟨gfInv_one hp, fun a ha => gfInv_gfInv hp ha, gfInv_two hp⟩,
    fun a => decode_encode (i := .inv a) rfl,
    zeroFieldsChecked_row (.inv 0) (by decide) (by decide), gfInv_two_reference⟩
  rw [exec, execInv, invError_of_ne ha]
  rfl

/-! ### The frame of the commands that store nothing -/

/-- Settles O36: an error completion has no effect but its own, and each of these commands changes one field. -/
theorem registerCommandsFrame : Obligations.RegisterCommandsFrame := by
  refine ⟨fun a b i s t hi h => ?_, fun n i s t hi h => ?_⟩ <;>
    rcases exec_next h with ⟨e, -, rfl⟩ | ⟨-, rfl⟩
  · exact ⟨rfl, exec_err_iff h, fun _ => rfl⟩
  · fin_cases hi <;> exact ⟨rfl, exec_err_iff h, fun _ => rfl⟩
  · exact ⟨rfl, exec_err_iff h, fun _ => rfl⟩
  · fin_cases hi <;> exact ⟨rfl, exec_err_iff h, fun _ => rfl⟩

end Sys2Proof.Machine
end

section
/-! PROOFS. The buffer command MAC: its checks in order, what it stores, its words, and MAC on one buffer
(41_field_buffer.md R89, R90). -/

namespace Sys2Proof.Machine

/-- A command whose checks fail from its issue: its operands are those of the registers (R44, R106). -/
theorem exec_of_error {i : Instr} {s : State} {e : ErrCode} (h : s.JustIssued)
    (herr : ∀ w, errorOf i s (s.freshFlight w) = some e) : exec i s = .next (s.errorCompletion e) := by
  obtain ⟨w, hw⟩ := h.flight_eq i
  rw [exec_eq_conclude, hw, herr, conclude_some]

/-- MAC's first two checks report the same code, so that their order does not show (R89). -/
theorem errorOf_mac_range (c : Byte) {s : State} {f : InFlight}
    (h : s.cfg.memSize < f.dstNat + f.lenNat ∨ s.cfg.memSize < f.srcNat + f.lenNat) :
    errorOf (.mac c) s f = some .range := by
  rcases h with hdst | hsrc
  · simp [errorOf, macError, inRange, hdst]
  · simp [errorOf, macError, inRange, hsrc]

/-- MAC's third check, where the first two pass (R89). -/
theorem errorOf_mac_overlap (c : Byte) {s : State} {f : InFlight} (hdst : f.dstNat + f.lenNat ≤ s.cfg.memSize)
    (hsrc : f.srcNat + f.lenNat ≤ s.cfg.memSize) (hlap : overlapping f.dstNat f.srcNat f.lenNat = true) :
    errorOf (.mac c) s f = some .overlap := by
  simp [errorOf, macError, inRange, hdst, hsrc, hlap]

/-- Settles O22: each check that fails ends MAC with its code, and where none does the loop stores the destination. -/
theorem macAccumulates : Obligations.MacAccumulates := by
  refine ⟨?_, fun c => decode_encode (i := .mac c) rfl, zeroFieldsChecked_row (.mac 0) (by decide) (by decide),
    by decide, by decide⟩
  rintro c s _ _ _ hissued rfl rfl rfl
  refine ⟨fun hpast => ?_, fun hdst hsrc hlap => ?_, fun hdst hsrc hlap => ?_⟩
  · exact exec_of_error hissued fun _ => errorOf_mac_range c hpast
  · exact exec_of_error hissued fun _ => errorOf_mac_overlap c hdst hsrc ((overlapping_iff _ _ _).2 hlap)
  · have hfits : s.MacFits := ⟨hdst, hsrc, by rwa [← Bool.not_eq_true, overlapping_iff]⟩
    exact ⟨s.afterMac c, exec_mac hissued hfits c, rfl, storesBuffer_afterMac hfits c⟩

/-- R90: on one buffer MAC multiplies every byte by `c ^ 0x01`. -/
theorem storesBuffer_afterMac_self {c k : Byte} {s : State} (hfits : s.MacFits) (hsame : s.src.toNat = s.dst.toNat)
    (hk : c ^^^ 0x01#8 = k) :
    StoresBuffer s.mem (s.afterMac c).mem s.dst.toNat s.len.toNat fun i =>
      gfMul s.cfg.fieldPoly k (s.mem.read (s.dst.toNat + i)) := by
  have hstores := storesBuffer_afterMac hfits c
  simp only [hsame, gfAdd_gfMul_self, hk] at hstores
  exact hstores

/-- Settles O23: the same buffer passes MAC's checks, and the special coefficients are the factors 0, 1 and `k`. -/
theorem aliasedMacScales : Obligations.AliasedMacScales := by
  rintro c s _ _ hissued rfl hsame rfl - hrange
  have hfits : s.MacFits := ⟨hrange, hsame ▸ hrange, hsame ▸ overlapping_self _ _⟩
  have hscaled {k : Byte} (hk : c ^^^ 0x01#8 = k) := (storesBuffer_afterMac_self hfits hsame hk).1
  refine ⟨s.afterMac c, exec_mac hissued hfits c, hscaled rfl, fun hc i hi => ?_, fun hc i hi => ?_, fun k hc => ?_,
    (storesBuffer_afterMac hfits c).2⟩
  · exact (hscaled (hc ▸ BitVec.xor_self) i hi).trans (zero_gfMul _ _)
  · exact (hscaled (hc ▸ BitVec.zero_xor) i hi).trans (one_gfMul _ _)
  · exact hscaled (by rw [hc, BitVec.xor_assoc]; exact BitVec.xor_zero)

end Sys2Proof.Machine
end

section
/-! PROOFS. The solver commands SCLR and SWID (42_solver.md R96, R97), and how RANK and W change in a step (R102). -/

namespace Sys2Proof.Machine

/-- Settles O24: SCLR checks nothing, and its word is that of its row. -/
theorem sclrClearsSolver : Obligations.SclrClearsSolver :=
  ⟨fun _ => rfl, decode_encode (i := .sclr) rfl, zeroFieldsChecked_row .sclr (by decide) (by decide)⟩

/-! ### SWID -/

/-- SWID's first check (R97). -/
theorem swidError_shrink (cfg : Config) {sv : Solver} {n : Nat} (h : n < sv.width) :
    swidError cfg sv n = some .widthShrink := by simp [swidError, h]

/-- SWID's second check, where the first passes (R97). -/
theorem swidError_overflow {cfg : Config} {sv : Solver} {n : Nat} (hle : sv.width ≤ n) (h : cfg.maxCols < n) :
    swidError cfg sv n = some .widthOverflow := by simp [swidError, hle.not_gt, h]

theorem swidError_none {cfg : Config} {sv : Solver} {n : Nat} (hle : sv.width ≤ n) (hmax : n ≤ cfg.maxCols) :
    swidError cfg sv n = none := by simp [swidError, hle.not_gt, hmax.not_gt]

@[simp] theorem length_rows_grow (n : Nat) (sv : Solver) : (sv.grow n).rows.length = sv.rows.length :=
  List.length_map _

@[simp] theorem width_grow (n : Nat) (sv : Solver) : (sv.grow n).width = n := rfl

/-- A solver that grows has columns without rows (R97). -/
theorem full_grow {n : Nat} {sv : Solver} (hlt : sv.width < n) (hrank : sv.rows.length ≤ sv.width) :
    (sv.grow n).full = false := by
  rw [← Bool.not_eq_true, Solver.full_iff, length_rows_grow, width_grow]
  omega

/-- SWID to the width the solver has changes nothing (R97). -/
theorem grow_width (sv : Solver) : sv.grow sv.width = sv := by simp [Solver.grow]

/-- Settles O25: each check that fails ends SWID with its code, and the padding is `Solver.grow`. -/
theorem swidGrowsWidth : Obligations.SwidGrowsWidth := by
  refine ⟨fun n s => ⟨fun hlt => ?_, fun hle hmax => ?_, fun hle hmax => ?_, fun hwidth => by omega, full_grow, ?_⟩,
    fun p w n vs hle hvs h => independent_map_padTo p hle hvs h,
    fun n hn => decode_encode (i := .swid n) (decide_eq_true hn),
    zeroFieldsChecked_row (.swid 0) (by decide) (by decide)⟩
  · rw [exec, execSwid, swidError_shrink _ hlt]
    rfl
  · rw [exec, execSwid, swidError_overflow hle hmax]
    rfl
  · rw [exec, execSwid, swidError_none hle hmax]
    rfl
  · rintro rfl
    exact grow_width _

/-! ### RANK and W in a step -/

/-- An insertion keeps RANK, or makes it one more (R98). -/
theorem length_rows_insertRow (p : BitVec 9) (n : Nat) (r : Row) (sv : Solver) :
    (sv.insertRow p n r).rows.length = sv.rows.length ∨
      (sv.insertRow p n r).rows.length = sv.rows.length + 1 := by
  unfold Solver.insertRow
  split
  · exact .inl rfl
  · exact .inr List.length_append

@[simp] theorem width_insertRow (p : BitVec 9) (n : Nat) (r : Row) (sv : Solver) :
    (sv.insertRow p n r).width = sv.width := by
  unfold Solver.insertRow
  split <;> rfl

/-- How RANK and W can change from `s` to `t` (R102). -/
def RankWidthMove (s t : State) : Prop :=
  (t.solver.rows.length = s.solver.rows.length ∨
    (t.solver.rows.length = s.solver.rows.length + 1 ∧ ∃ f, s.inflight = some f ∧ decode f.word = .ok .sins) ∨
    (t.solver.rows.length = 0 ∧ t.solver.width = 0)) ∧
  (s.solver.width ≤ t.solver.width ∨ (t.solver.width = 0 ∧ t.solver.rows = []))

namespace RankWidthMove
variable {s t : State}

theorem of_keep (h : t.solver = s.solver) : RankWidthMove s t := ⟨.inl (h ▸ rfl), .inl (h ▸ le_rfl)⟩

theorem of_clear (h : t.solver = Solver.clear) : RankWidthMove s t := by
  rw [RankWidthMove, h]
  exact ⟨.inr (.inr ⟨rfl, rfl⟩), .inr ⟨rfl, rfl⟩⟩

theorem of_grow {n : Nat} (hle : s.solver.width ≤ n) (h : t.solver = s.solver.grow n) : RankWidthMove s t := by
  rw [RankWidthMove, h]
  exact ⟨.inl (length_rows_grow ..), .inl hle⟩

theorem of_insert {f : InFlight} (hf : s.inflight = some f) (hd : decode f.word = .ok .sins) {n : Nat} {r : Row}
    (h : t.solver = s.solver.insertRow s.cfg.fieldPoly n r) : RankWidthMove s t := by
  rw [RankWidthMove, h, width_insertRow]
  refine ⟨?_, .inl le_rfl⟩
  rcases length_rows_insertRow s.cfg.fieldPoly n r s.solver with hsame | hmore
  · exact .inl hsame
  · exact .inr (.inl ⟨hmore, f, hf, hd⟩)

end RankWidthMove

theorem EngineMove.rankWidthMove {s t : State} (hmove : EngineMove s t) : RankWidthMove s t := by
  cases hmove with
  | idle => exact .of_keep rfl
  | illegal => exact .of_keep rfl
  | access => exact .of_keep rfl
  | fail => exact .of_keep rfl
  | @succeed f i hf hd herr =>
    cases i with
    | add a b | mul a b | div a b | inv a | mac c => exact .of_keep rfl
    | sclr | ssol => exact .of_clear rfl
    | swid n => exact .of_grow ((errorOf_swid_eq_none_iff n s f).1 herr).1 rfl
    | sins => exact .of_insert hf hd rfl

theorem TurnMove.rankWidthMove {turn : Turn} {s t : State} (hmove : TurnMove s turn t) : RankWidthMove s t := by
  cases hmove with
  | read => exact .of_keep rfl
  | write => exact .of_keep (writeOffset_frame s _ _).2
  | store => exact .of_keep rfl
  | unit hmove => exact hmove.rankWidthMove
  | rst level => exact (setRst_frame s level).2.elim .of_keep .of_clear

/-- Settles O51: only SINS inserts a row, only SWID grows the width, and what removes rows clears the solver. -/
theorem rankAndWidthMonotone : Obligations.RankAndWidthMonotone := by
  intro s t hstep
  rcases step_move hstep with ⟨-, hmove⟩ | ⟨turn, rest, -, hmove⟩
  · exact hmove.rankWidthMove
  · exact hmove.rankWidthMove

end Sys2Proof.Machine
end

section
/-! PROOFS. SINS: its checks in order, the row it reads, and what it does with it (42_solver.md R92, R93, R98, R100,
R102). -/

namespace Sys2Proof.Machine

/-! ### The span -/

/-- Settles O28: the elimination of R100 in the vector space. -/
theorem inSpanTestIsExact : Obligations.InSpanTestIsExact := fun _ hp _ _ _ hvs hc => inSpan_eq_true_iff hp hvs hc

/-- A sum of zero multiples is zero (R92). -/
theorem linComb_zeros (p : BitVec 9) {w : Nat} {vs : List (List Byte)} (hvs : ∀ v ∈ vs, v.length = w) :
    linComb p w (List.replicate vs.length 0x00#8) vs = List.replicate w 0x00#8 := by
  induction vs with
  | nil => rfl
  | cons v vs ih =>
    obtain ⟨hv, htail⟩ := List.forall_mem_cons.1 hvs
    have hscale : vecScale p 0x00#8 v = List.replicate w 0x00#8 := by
      rw [vecScale, funext (zero_gfMul p), List.map_const', hv]
    rw [List.length_cons, List.replicate_succ, linComb_cons, ih htail, hscale, vecAdd, List.zipWith_replicate']
    rfl

/-- The zero vector is in every span (R92). -/
theorem inSpan_zero (p : BitVec 9) {w : Nat} {vs : List (List Byte)} (hvs : ∀ v ∈ vs, v.length = w) :
    InSpan p w vs (List.replicate w 0x00#8) :=
  ⟨_, List.length_replicate, linComb_zeros p hvs⟩

section Span
variable {p : BitVec 9} (hp : p ∈ legalPolys) {w : Nat} {vs : List (List Byte)} (hvs : ∀ v ∈ vs, v.length = w)
include hp hvs

/-- A span depends on which vectors are listed, and grows with them (R92). -/
theorem InSpan.mono {us : List (List Byte)} {c : List Byte} (h : InSpan p w us c) (hsub : us ⊆ vs)
    (hc : c.length = w) : InSpan p w vs c := by
  obtain ⟨K, _, ⟨φ⟩⟩ := exists_fieldModel hp
  rw [φ.inSpan_iff (fun u hu => hvs u (hsub hu)) hc] at h
  exact (φ.inSpan_iff hvs hc).2 (φ.spanOf_mono hsub h)

/-- Every vector listed is in the span (R92). -/
theorem inSpan_of_mem {c : List Byte} (hc : c ∈ vs) : InSpan p w vs c := by
  obtain ⟨K, _, ⟨φ⟩⟩ := exists_fieldModel hp
  exact (φ.inSpan_iff hvs (hvs c hc)).2 (φ.vec_mem_spanOf w hc)

/-- R93: as many independent vectors as columns span the whole space, for one more could not be independent of them. -/
theorem inSpan_of_independent (hlen : vs.length = w) (h : Independent p w vs) {c : List Byte} (hc : c.length = w) :
    InSpan p w vs c := by
  obtain ⟨K, _, ⟨φ⟩⟩ := exists_fieldModel hp
  by_contra hout
  have hall : ∀ v ∈ vs ++ [c], v.length = w := by
    simpa only [List.forall_mem_append, List.forall_mem_singleton] using ⟨hvs, hc⟩
  have hmore := φ.length_le_of_independent hall (φ.independent_append hvs hc h hout)
  rw [List.length_append, List.length_singleton] at hmore
  omega

end Span

/-! ### The insertion of a row -/

section Insert
variable {p : BitVec 9} {sv : Solver} {n : Nat} {r : Row}

theorem insertRow_of_inSpan (n : Nat) (h : inSpan p (sv.rows.map Row.coef) r.coef = true) :
    sv.insertRow p n r = { sv with dep := true } := if_pos h

theorem insertRow_of_not_inSpan (hslen : 0 < sv.rows.length → n = sv.slen)
    (h : inSpan p (sv.rows.map Row.coef) r.coef = false) :
    sv.insertRow p n r = { width := sv.width, rows := sv.rows ++ [r], slen := n, dep := false } := by
  have hlatch : (if sv.rows.length = 0 then n else sv.slen) = n := by
    split
    · rfl
    next hrows => exact (hslen (Nat.pos_of_ne_zero hrows)).symm
  rw [Solver.insertRow, if_neg (by simp [h]), hlatch]

/-- After a row of `n` payload bytes the latched length is `n`, if any row is held (R98). -/
theorem slen_insertRow (hslen : 0 < sv.rows.length → n = sv.slen) :
    0 < (sv.insertRow p n r).rows.length → n = (sv.insertRow p n r).slen := by
  cases h : inSpan p (sv.rows.map Row.coef) r.coef with
  | true => simpa only [insertRow_of_inSpan n h] using hslen
  | false => simp [insertRow_of_not_inSpan hslen h]

/-- Inserted once, a row is in the span of the rows (R102). -/
theorem inSpan_insertRow (hp : p ∈ legalPolys) (hcoef : ∀ r ∈ sv.rows, r.coef.length = sv.width)
    (hr : r.coef.length = sv.width) (hslen : 0 < sv.rows.length → n = sv.slen) :
    inSpan p ((sv.insertRow p n r).rows.map Row.coef) r.coef = true := by
  cases h : inSpan p (sv.rows.map Row.coef) r.coef with
  | true => simpa only [insertRow_of_inSpan n h] using h
  | false =>
    rw [insertRow_of_not_inSpan hslen h]
    have hall : ∀ v ∈ (sv.rows ++ [r]).map Row.coef, v.length = sv.width := by
      simpa only [List.forall_mem_map, List.forall_mem_append, List.forall_mem_singleton] using ⟨hcoef, hr⟩
    exact (inSpan_eq_true_iff hp hall hr).2 (inSpan_of_mem hp hall (by simp))

end Insert

/-! ### The checks of SINS -/

section Checks
variable {s : State} {f : InFlight}

/-- The first check of SINS (R98). -/
theorem errorOf_sins_lenOverflow (h : s.cfg.maxSym < f.lenNat) : errorOf .sins s f = some .lenOverflow := by
  simp [errorOf, sinsError, h]

/-- The second check of SINS, where the first passes (R98). -/
theorem errorOf_sins_lenMismatch (hmax : f.lenNat ≤ s.cfg.maxSym) (hrank : 0 < s.solver.rows.length)
    (h : f.lenNat ≠ s.solver.slen) : errorOf .sins s f = some .lenMismatch := by
  simp [errorOf, sinsError, hmax.not_gt, List.length_pos_iff.1 hrank, h]

/-- The last two checks of SINS, where the first two pass; they report the same code (R98). -/
theorem errorOf_sins_range (hmax : f.lenNat ≤ s.cfg.maxSym)
    (hslen : 0 < s.solver.rows.length → f.lenNat = s.solver.slen)
    (h : s.cfg.memSize < f.coefNat + s.solver.width ∨ s.cfg.memSize < f.srcNat + f.lenNat) :
    errorOf .sins s f = some .range := by
  have hmatch : ¬ (0 < s.solver.rows.length ∧ f.lenNat ≠ s.solver.slen) := fun ⟨hrank, hne⟩ => hne (hslen hrank)
  rcases h with hcoef | hsrc
  · simp [errorOf, sinsError, inRange, hmax.not_gt, hmatch, hcoef]
  · simp [errorOf, sinsError, inRange, hmax.not_gt, hmatch, hsrc]

end Checks

/-! ### The bytes SINS reads -/

/-- The byte access `i` of a SINS in flight as `f` reads, `w` being the width (R98). -/
def sinsByte (w : Nat) (f : InFlight) (m : Memory) (i : Nat) : Byte :=
  if i < w then m.read (f.coefNat + i) else m.read (f.srcNat + (i - w))

/-- A SINS in flight as `f` that has made `k` accesses, with memory `m` (R44). -/
def sinsProgress (w : Nat) (f : InFlight) (m : Memory) (k : Nat) : InFlight × Memory :=
  ({ f with made := k, fetched := (List.range k).map (sinsByte w f m) }, m)

theorem sinsAccess_sinsProgress (w : Nat) (f : InFlight) (m : Memory) (k : Nat) :
    sinsAccess w (sinsProgress w f m k) = sinsProgress w f m (k + 1) := by
  by_cases hk : k < w <;>
    simp [sinsAccess, sinsProgress, sinsByte, fetchByte, hk, List.range_succ, InFlight.coefNat, InFlight.srcNat]

/-- The accesses of a SINS that has made none. -/
theorem runAccesses_sinsAccess (w : Nat) {f : InFlight} (m : Memory) (hmade : f.made = 0) (hheld : f.fetched = [])
    (k : Nat) : runAccesses (sinsAccess w) k f m = sinsProgress w f m k := by
  have hstart : (f, m) = sinsProgress w f m 0 := by
    rw [sinsProgress, List.range_zero, List.map_nil, ← hmade, ← hheld]
  rw [runAccesses, hmade, Nat.sub_zero, hstart]
  induction k with
  | zero => rfl
  | succ k ih => rw [Function.iterate_succ_apply', ih, sinsAccess_sinsProgress]

/-- What SINS reads is the coefficient vector and then the payload (R98). -/
theorem candidate_sinsProgress (w n : Nat) (f : InFlight) (m : Memory) :
    candidate w (sinsProgress w f m (w + n)).1.fetched =
      { coef := m.readMany f.coefNat w, payload := m.readMany f.srcNat n } := by
  have hcoef : (List.range w).map (sinsByte w f m) = m.readMany f.coefNat w :=
    List.map_congr_left fun i hi => if_pos (List.mem_range.1 hi)
  have hpayload : ((List.range n).map (w + ·)).map (sinsByte w f m) = m.readMany f.srcNat n := by
    rw [List.map_map]
    refine List.map_congr_left fun i _ => ?_
    simp [sinsByte]
  rw [sinsProgress, List.range_add, List.map_append, hcoef, hpayload, candidate]
  simp

/-! ### SINS from its issue -/

/-- The registers describe a row that passes the checks of SINS (R98). -/
def State.SinsFits (s : State) : Prop :=
  s.len.toNat ≤ s.cfg.maxSym ∧ (0 < s.solver.rows.length → s.len.toNat = s.solver.slen) ∧
    s.coef.toNat + s.solver.width ≤ s.cfg.memSize ∧ s.src.toNat + s.len.toNat ≤ s.cfg.memSize

/-- The row at the buffers of the registers (R98). -/
def State.sinsRow (s : State) : Row :=
  { coef := s.mem.readMany s.coef.toNat s.solver.width, payload := s.mem.readMany s.src.toNat s.len.toNat }

/-- The state a SINS with the registers' operands leaves when its checks pass (R98, R107). -/
def State.afterSins (s : State) : State :=
  (s.setSolver (s.solver.insertRow s.cfg.fieldPoly s.len.toNat s.sinsRow)).successCompletion

/-- R98: a SINS whose checks pass, from its issue. -/
theorem exec_sins {s : State} (h : s.JustIssued) (hfits : s.SinsFits) : exec .sins s = .next s.afterSins := by
  obtain ⟨w, hw⟩ := h.flight_eq .sins
  have herr : errorOf .sins s (s.freshFlight w) = none := (errorOf_sins_eq_none_iff s (s.freshFlight w)).2 hfits
  have hrun := runAccesses_sinsAccess s.solver.width (f := s.freshFlight w) s.mem rfl rfl (s.solver.width + s.len.toNat)
  have hrow := (congrArg (fun fm => candidate s.solver.width fm.1.fetched) hrun).trans (candidate_sinsProgress ..)
  rw [exec_eq_conclude, hw, herr, conclude_none, commandEffects, remainingAccesses, hw, accessTotal_sins s _ herr]
  exact congrArg (fun r => Host.Outcome.next
    (s.setSolver (s.solver.insertRow s.cfg.fieldPoly s.len.toNat r)).successCompletion) hrow

/-- A SINS that completes without error passed its checks (R108). -/
theorem sinsFits_of_exec {s t : State} (h : s.JustIssued) (hexec : exec .sins s = .next t)
    (hcode : t.errcode = .noError) : s.SinsFits := by
  obtain ⟨w, hw⟩ := h.flight_eq .sins
  rcases exec_next hexec with ⟨e, herr, rfl⟩ | ⟨herr, -⟩
  · exact absurd hcode (errorOf_ne_noError herr)
  · rw [hw] at herr
    exact (errorOf_sins_eq_none_iff s (s.freshFlight w)).1 herr

section AfterSins
variable {s : State}

theorem exec_sins_of_inSpan (h : s.JustIssued) (hfits : s.SinsFits)
    (hspan : inSpan s.cfg.fieldPoly (s.solver.rows.map Row.coef) s.sinsRow.coef = true) :
    exec .sins s = .next (s.setSolver { s.solver with dep := true }).successCompletion := by
  rw [exec_sins h hfits, State.afterSins, insertRow_of_inSpan _ hspan]

theorem exec_sins_of_not_inSpan (h : s.JustIssued) (hfits : s.SinsFits)
    (hspan : inSpan s.cfg.fieldPoly (s.solver.rows.map Row.coef) s.sinsRow.coef = false) :
    exec .sins s =
      .next (s.setSolver { width := s.solver.width, rows := s.solver.rows ++ [s.sinsRow], slen := s.len.toNat,
                           dep := false }).successCompletion := by
  obtain ⟨-, hslen, -, -⟩ := id hfits
  rw [exec_sins h hfits, State.afterSins, insertRow_of_not_inSpan hslen hspan]

/-- The test of SINS at its row, by the mathematical span (R92). -/
theorem State.Inv.inSpan_sinsRow_iff (h : s.Inv) :
    inSpan s.cfg.fieldPoly (s.solver.rows.map Row.coef) s.sinsRow.coef = true ↔
      InSpan s.cfg.fieldPoly s.solver.width (s.solver.rows.map Row.coef) s.sinsRow.coef :=
  inSpan_eq_true_iff h.cfgLegal.1 (List.forall_mem_map.2 h.coefLength) (Memory.length_readMany ..)

end AfterSins

/-! ### The obligations -/

/-- Settles O26: the row SINS reads, and the two cases of its insertion. -/
theorem sinsCompletes : Obligations.SinsCompletes := by
  rintro s _ hissued rfl hmax hslen hcoef hsrc
  exact ⟨exec_sins_of_inSpan hissued ⟨hmax, hslen, hcoef, hsrc⟩,
    exec_sins_of_not_inSpan hissued ⟨hmax, hslen, hcoef, hsrc⟩⟩

/-- Settles O27: each check that fails ends SINS with its code, and where none does the elimination test decides the
span. -/
theorem sinsInsertsIndependentRows : Obligations.SinsInsertsIndependentRows := by
  refine ⟨?_, fun p _ _ hvs => inSpan_zero p hvs, decode_encode (i := .sins) rfl,
    zeroFieldsChecked_row .sins (by decide) (by decide)⟩
  rintro s _ h hissued rfl
  refine ⟨fun hover => ?_, fun hmax hrank hne => ?_, fun hmax hslen hpast => ?_, fun hmax hslen hcoef hsrc => ?_⟩
  · exact exec_of_error hissued fun _ => errorOf_sins_lenOverflow hover
  · exact exec_of_error hissued fun _ => errorOf_sins_lenMismatch hmax hrank hne
  · exact exec_of_error hissued fun _ => errorOf_sins_range hmax hslen hpast
  · have hfits : s.SinsFits := ⟨hmax, hslen, hcoef, hsrc⟩
    refine ⟨fun hspan => exec_sins_of_inSpan hissued hfits (h.inSpan_sinsRow_iff.2 hspan),
      fun hspan => exec_sins_of_not_inSpan hissued hfits ?_⟩
    rw [← Bool.not_eq_true]
    exact mt h.inSpan_sinsRow_iff.1 hspan

/-- Settles O32: the rows of a full solver span the whole space. -/
theorem fullSolverRejectsCandidates : Obligations.FullSolverRejectsCandidates := by
  intro s h hsolver hissued hfull hlen hcoef hsrc
  obtain ⟨-, hsquare⟩ := (Solver.full_iff s.solver).1 hfull
  refine exec_sins_of_inSpan hissued ⟨hlen ▸ h.slenBound, fun _ => hlen, hcoef, hsrc⟩ (h.inSpan_sinsRow_iff.2 ?_)
  exact inSpan_of_independent h.cfgLegal.1 (List.forall_mem_map.2 h.coefLength) (by rw [List.length_map, hsquare])
    hsolver.independent (Memory.length_readMany ..)

/-- Settles O33: the second SINS reads the same row and passes the same checks, and finds the row in the span of the
rows it has been inserted into. -/
theorem duplicateInsertIsDependent : Obligations.DuplicateInsertIsDependent := by
  intro s t h hissued hexec hcode
  have hfits := sinsFits_of_exec hissued hexec hcode
  obtain rfl : s.afterSins = t := Host.Outcome.next.inj ((exec_sins hissued hfits).symm.trans hexec)
  obtain ⟨hmax, hslen, hcoef, hsrc⟩ := hfits
  have hwidth : s.afterSins.solver.width = s.solver.width := width_insertRow ..
  have hrow : s.afterSins.sinsRow = s.sinsRow := by rw [State.sinsRow, hwidth]; rfl
  have hagain : s.afterSins.SinsFits := ⟨hmax, slen_insertRow hslen, hwidth.symm ▸ hcoef, hsrc⟩
  refine ⟨_, exec_sins_of_inSpan (fun _ hf => nomatch hf) hagain ?_, rfl, rfl⟩
  rw [hrow]
  exact inSpan_insertRow h.cfgLegal.1 h.coefLength (Memory.length_readMany ..) hslen

end Sys2Proof.Machine
end

section
/-! PROOFS. The solution of a full system (42_solver.md R95, R101): elimination keeps the solutions of the equations,
and the reduced form of as many independent equations as unknowns shows the unknowns. -/

namespace Sys2Proof.Machine

/-! ### An equation at given unknowns -/

theorem dot_cons (p : BitVec 9) (a b : Byte) (c x : List Byte) :
    dot p (a :: c) (b :: x) = gfAdd (gfMul p a b) (dot p c x) := rfl

theorem dot_vecScale (p : BitVec 9) (k : Byte) (c x : List Byte) :
    dot p (vecScale p k c) x = gfMul p k (dot p c x) := by
  induction c generalizing x with
  | nil => exact (gfMul_zero p k).symm
  | cons a c ih =>
    cases x with
    | nil => exact (gfMul_zero p k).symm
    | cons b x =>
      rw [show vecScale p k (a :: c) = gfMul p k a :: vecScale p k c from rfl, dot_cons, dot_cons, ih, gfMul_gfAdd,
        gfMul_assoc]

theorem dot_vecAdd (p : BitVec 9) {u v : List Byte} (h : u.length = v.length) (x : List Byte) :
    dot p (vecAdd u v) x = gfAdd (dot p u x) (dot p v x) := by
  induction u generalizing v x with
  | nil =>
    obtain rfl := List.length_eq_zero_iff.1 h.symm
    exact BitVec.xor_self.symm
  | cons a u ih =>
    obtain ⟨b, v, rfl⟩ := List.exists_cons_of_length_eq_add_one h.symm
    cases x with
    | nil => exact BitVec.xor_self.symm
    | cons y x =>
      have hrest := ih (v := v) (by simpa using h) x
      rw [show vecAdd (a :: u) (b :: v) = gfAdd a b :: vecAdd u v from rfl, dot_cons, dot_cons, dot_cons, hrest]
      simp only [gfAdd, xor_gfMul]
      ac_rfl

/-- Byte `b` of every unknown (R95: each byte position is a system of its own). -/
def unknownBytes (xs : List (List Byte)) (b : Nat) : List Byte := xs.map fun x => x.getD b 0x00#8

theorem getD_unknownBytes (xs : List (List Byte)) (b q : Nat) :
    (unknownBytes xs b).getD q 0x00#8 = (xs.getD q []).getD b 0x00#8 :=
  List.getD_map (l := xs) (d := []) (f := fun x : List Byte => x.getD b 0x00#8)

/-- `r` is an equation in `w` unknowns of `n` bytes, and `xs` solves it (R95). -/
structure Row.HoldsAt (p : BitVec 9) (w n : Nat) (xs : List (List Byte)) (r : Row) : Prop where
  coefLength : r.coef.length = w
  payloadLength : r.payload.length = n
  equation : ∀ b < n, dot p r.coef (unknownBytes xs b) = r.payload.getD b 0x00#8

section Elimination
variable {p : BitVec 9} {w n : Nat} {xs : List (List Byte)}

theorem Row.HoldsAt.eliminate {b r : Row} (hr : r.HoldsAt p w n xs) (hb : b.HoldsAt p w n xs) (f : Byte) :
    (Row.eliminate p f b r).HoldsAt p w n xs where
  coefLength := by simp [Row.eliminate, hr.coefLength, hb.coefLength]
  payloadLength := by simp [Row.eliminate, hr.payloadLength, hb.payloadLength]
  equation := fun k hk => by
    have hcoef : r.coef.length = (vecScale p f b.coef).length := by simp [hr.coefLength, hb.coefLength]
    have hpayload : r.payload.length = (vecScale p f b.payload).length := by simp [hr.payloadLength, hb.payloadLength]
    rw [Row.eliminate, dot_vecAdd p hcoef, dot_vecScale, getD_vecAdd hpayload, getD_vecScale, hr.equation k hk,
      hb.equation k hk]

theorem Row.HoldsAt.scale {r : Row} (hr : r.HoldsAt p w n xs) (g : Byte) : (Row.scale p g r).HoldsAt p w n xs where
  coefLength := by simp [Row.scale, hr.coefLength]
  payloadLength := by simp [Row.scale, hr.payloadLength]
  equation := fun k hk => by rw [Row.scale, dot_vecScale, getD_vecScale, hr.equation k hk]

theorem Row.HoldsAt.reduceRow {basis : List BasisRow} (hbasis : ∀ b ∈ basis, b.row.HoldsAt p w n xs) {r : Row}
    (hr : r.HoldsAt p w n xs) : (reduceRow p basis r).HoldsAt p w n xs := by
  induction basis generalizing r with
  | nil => exact hr
  | cons b basis ih =>
    obtain ⟨hb, htail⟩ := List.forall_mem_cons.1 hbasis
    rw [reduceRow_cons]
    exact ih htail (hr.eliminate hb _)

theorem holdsAt_addReduced {basis : List BasisRow} (hbasis : ∀ b ∈ basis, b.row.HoldsAt p w n xs) {r : Row}
    (hr : r.HoldsAt p w n xs) : ∀ b ∈ addReduced p basis r, b.row.HoldsAt p w n xs := by
  unfold addReduced
  split
  · exact hbasis
  next q _ =>
    have hnew : (normalize p q r).HoldsAt p w n xs := hr.scale _
    simp only [List.forall_mem_append, List.forall_mem_map, List.forall_mem_singleton]
    exact ⟨fun b hb => (hbasis b hb).eliminate hnew _, hnew⟩

/-- What solves the equations solves the reduced form (R100). -/
theorem holdsAt_reducedBasis {rows : List Row} (hrows : ∀ r ∈ rows, r.HoldsAt p w n xs) :
    ∀ b ∈ reducedBasis p rows, b.row.HoldsAt p w n xs :=
  List.foldlRecOn (motive := fun basis : List BasisRow => ∀ b ∈ basis, b.row.HoldsAt p w n xs) rows (extendBasis p)
    (List.forall_mem_nil _) fun _ hbasis _ hr => holdsAt_addReduced hbasis (.reduceRow hbasis (hrows _ hr))

end Elimination

/-! ### The reduced form of equations that span the whole space -/

/-- The vector with 1 in column `q` and 0 in the others. -/
def unitVector (w q : Nat) : List Byte := (List.range w).map fun j => if j = q then 0x01#8 else 0x00#8

@[simp] theorem length_unitVector (w q : Nat) : (unitVector w q).length = w := by simp [unitVector]

theorem getD_unitVector_self {w q : Nat} (h : q < w) : (unitVector w q).getD q 0x00#8 = 0x01#8 := by
  simp [unitVector, List.getD_eq_getElem?_getD, h]

theorem getD_unitVector_ne (w : Nat) {q j : Nat} (h : j ≠ q) : (unitVector w q).getD j 0x00#8 = 0x00#8 := by
  by_cases hj : j < w <;> simp [unitVector, List.getD_eq_getElem?_getD, h, hj]

theorem coef_eliminate_zero (p : BitVec 9) {b r : Row} (h : r.coef.length = b.coef.length) :
    (Row.eliminate p 0x00#8 b r).coef = r.coef :=
  List.ext_getElem (length_eliminate p _ h) fun j _ _ => by
    simp [Row.eliminate, vecAdd, vecScale, gfAdd, zero_gfMul]

/-- A row that is 0 at every pivot is reduced already (R100). -/
theorem coef_reduceRow_of_zero {p : BitVec 9} {w : Nat} {basis : List BasisRow}
    (hbasis : ∀ b ∈ basis, b.row.coef.length = w) {r : Row} (hr : r.coef.length = w)
    (hzero : ∀ b ∈ basis, r.coef.getD b.pivot 0x00#8 = 0x00#8) : (reduceRow p basis r).coef = r.coef := by
  induction basis generalizing r with
  | nil => rfl
  | cons b basis ih =>
    obtain ⟨hb, htail⟩ := List.forall_mem_cons.1 hbasis
    obtain ⟨hpivot, hrest⟩ := List.forall_mem_cons.1 hzero
    have hsame : (Row.eliminate p 0x00#8 b.row r).coef = r.coef := coef_eliminate_zero p (hr.trans hb.symm)
    rw [reduceRow_cons, hpivot, ih htail (hsame.symm ▸ hr) (hsame.symm ▸ hrest), hsame]

namespace FieldModel
variable {p : BitVec 9} {K : Type} [Field K] (φ : FieldModel p K) {w : Nat}

/-- In the span of a reduced form only zero is 0 at every pivot. -/
theorem vec_eq_zero_of_mem {basis : List BasisRow} (h : ReducedForm w basis) {c : List Byte} (hc : c.length = w)
    (hmem : φ.vec w c ∈ φ.spanOf w (basisCoefs basis)) (hzero : ∀ b ∈ basis, c.getD b.pivot 0x00#8 = 0x00#8) :
    φ.vec w c = 0 := by
  have hreduced := φ.vec_reduceRow_of_mem h (r := { coef := c, payload := [] }) hc hmem
  rwa [coef_reduceRow_of_zero h.length hc hzero] at hreduced

include φ in
/-- The product of a unit vector with the unknowns is one of them. -/
theorem dot_of_unit {q : Nat} {c x : List Byte} (hc : c.length = w) (hx : x.length = w) (hq : q < w)
    (hone : c.getD q 0x00#8 = 0x01#8) (hzero : ∀ j < w, j ≠ q → c.getD j 0x00#8 = 0x00#8) :
    dot p c x = x.getD q 0x00#8 := by
  have hvec : φ.vec w c = Pi.single ⟨q, hq⟩ 1 := by
    ext j
    by_cases hj : (j : Nat) = q
    · obtain rfl : j = ⟨q, hq⟩ := Fin.ext hj
      simp only [vec, hone, value_one, Pi.single_eq_same]
    · rw [vec, hzero j j.2 hj, value_zero, Pi.single_eq_of_ne fun h => hj (congrArg Fin.val h)]
  refine φ.value.injective ?_
  rw [φ.value_dot hc hx, hvec, single_one_dotProduct]
  rfl

end FieldModel

/-- A basis row is 0 at the pivot of every other (R100). -/
theorem ReducedForm.getD_other_pivot {w : Nat} {basis : List BasisRow} (h : ReducedForm w basis) {b c : BasisRow}
    (hb : b ∈ basis) (hc : c ∈ basis) (hne : b ≠ c) : b.row.coef.getD c.pivot 0x00#8 = 0x00#8 := by
  have : Std.Symm fun b c : BasisRow =>
    b.row.coef.getD c.pivot 0x00#8 = 0x00#8 ∧ c.row.coef.getD b.pivot 0x00#8 = 0x00#8 := ⟨fun _ _ hbc => hbc.symm⟩
  exact (h.pivotsZero.forall hb hc hne).1

section Full
variable {p : BitVec 9} (hp : p ∈ legalPolys) {w : Nat} {rows : List Row} (hrows : ∀ r ∈ rows, r.coef.length = w)
  (hspan : ∀ c : List Byte, c.length = w → InSpan p w (rows.map Row.coef) c)
include hp hrows hspan

/-- Every column is a pivot: a unit vector that met no pivot would be reduced, and not zero (R101). -/
theorem exists_pivot {q : Nat} (hq : q < w) : ∃ b ∈ reducedBasis p rows, b.pivot = q := by
  obtain ⟨K, _, ⟨φ⟩⟩ := exists_fieldModel hp
  obtain ⟨hform, hsame⟩ := φ.reducedBasis_spec hp hrows
  by_contra hnone
  have hmem : φ.vec w (unitVector w q) ∈ φ.spanOf w (basisCoefs (reducedBasis p rows)) :=
    hsame ▸ (φ.inSpan_iff (List.forall_mem_map.2 hrows) (length_unitVector w q)).1 (hspan _ (length_unitVector w q))
  have hvanishes := φ.vec_eq_zero_of_mem hform (length_unitVector w q) hmem fun b hb =>
    getD_unitVector_ne w fun hpivot => hnone ⟨b, hb, hpivot⟩
  have hentry : (unitVector w q).getD q 0x00#8 = 0x00#8 := (φ.value_eq_zero_iff _).1 (congrFun hvanishes ⟨q, hq⟩)
  exact absurd ((getD_unitVector_self hq).symm.trans hentry) (by decide)

/-- The payload of a row of the reduced form is the unknown at its pivot (R101). -/
theorem payload_reducedBasis {n : Nat} {xs : List (List Byte)} (hsolves : Solves p w n rows xs)
    (hpayload : ∀ r ∈ rows, r.payload.length = n) {b : BasisRow} (hb : b ∈ reducedBasis p rows) (hq : b.pivot < w) :
    b.row.payload = xs.getD b.pivot [] := by
  obtain ⟨K, _, ⟨φ⟩⟩ := exists_fieldModel hp
  obtain ⟨hform, -⟩ := φ.reducedBasis_spec hp hrows
  obtain ⟨hwidth, hbytes, hequations⟩ := hsolves
  have hholds := holdsAt_reducedBasis (xs := xs) (fun r hr => ⟨hrows r hr, hpayload r hr, hequations r hr⟩) b hb
  have hzero : ∀ j < w, j ≠ b.pivot → b.row.coef.getD j 0x00#8 = 0x00#8 := fun j hj hne => by
    obtain ⟨c, hc, rfl⟩ := exists_pivot hp hrows hspan hj
    exact hform.getD_other_pivot hb hc fun h => hne (h ▸ rfl)
  refine List.ext_getElem ?_ fun k hk hk' => ?_
  · rw [hholds.payloadLength, List.getD_eq_getElem _ _ (hwidth.symm ▸ hq), hbytes _ (List.getElem_mem _)]
  · have hequation := hholds.equation k (hholds.payloadLength ▸ hk)
    rw [φ.dot_of_unit hholds.coefLength (by simp [unknownBytes, hwidth]) hq (hform.pivotOne b hb) hzero] at hequation
    rw [getD_unknownBytes, List.getD_eq_getElem _ _ hk', List.getD_eq_getElem _ _ hk] at hequation
    exact hequation.symm

/-- Equations whose coefficients span the whole space have one solution at most: what R101 reads off. -/
theorem solve_eq_of_solves {n : Nat} {xs : List (List Byte)} (hsolves : Solves p w n rows xs)
    (hpayload : ∀ r ∈ rows, r.payload.length = n) : solve p w rows = xs := by
  obtain ⟨hwidth, -, -⟩ := id hsolves
  refine List.ext_getElem (by simp [solve, hwidth]) fun q hq hq' => ?_
  obtain ⟨c, hc, hpivot⟩ := exists_pivot hp hrows hspan (hwidth ▸ hq')
  cases hfind : (reducedBasis p rows).find? (fun b => b.pivot == q) with
  | none => exact absurd hpivot (by simpa using List.find?_eq_none.1 hfind c hc)
  | some b =>
    obtain rfl : b.pivot = q := by simpa using List.find?_some hfind
    have hb := payload_reducedBasis hp hrows hspan hsolves hpayload (List.mem_of_find?_eq_some hfind) (hwidth ▸ hq')
    simpa [solve, hfind, hq'] using hb

end Full

/-! ### Existence -/

/-- `w` unknowns of `n` bytes with the bytes `x 0` to `x (n - 1)` at the byte positions. -/
def unknownsOfBytes (w n : Nat) (x : Nat → List Byte) : List (List Byte) :=
  (List.range w).map fun j => (List.range n).map fun b => (x b).getD j 0x00#8

theorem unknownBytes_unknownsOfBytes {w n b : Nat} (hb : b < n) {x : Nat → List Byte} (hx : (x b).length = w) :
    unknownBytes (unknownsOfBytes w n x) b = x b := by
  refine List.ext_getElem (by simp [unknownBytes, unknownsOfBytes, hx]) fun j hj hj' => ?_
  simp [unknownBytes, unknownsOfBytes, hb, hj']

/-- Every byte position of a system with an invertible matrix is a system with a solution (R95). -/
theorem exists_solves {p : BitVec 9} {w n : Nat} {rows : List Row} (hlen : rows.length = w)
    (h : Invertible p w (rows.map Row.coef)) : ∃ xs, Solves p w n rows xs := by
  have hbyte (b : Nat) : ∃ x : List Byte, x.length = w ∧
      rows.map (fun r => dot p r.coef x) = rows.map fun r => r.payload.getD b 0x00#8 := by
    obtain ⟨x, ⟨hx, hsolves⟩, -⟩ := h (rows.map fun r => r.payload.getD b 0x00#8) (by rw [List.length_map, hlen])
    exact ⟨x, hx, by rw [← hsolves, List.map_map]; rfl⟩
  choose x hx hsolves using hbyte
  refine ⟨unknownsOfBytes w n x, by simp [unknownsOfBytes], by simp [unknownsOfBytes], fun r hr b hb => ?_⟩
  exact (congrArg (dot p r.coef) (unknownBytes_unknownsOfBytes hb (hx b))).trans (List.map_inj_left.1 (hsolves b) r hr)

/-- Settles O30: the rows span the whole space and are an invertible matrix; the span and the equations depend on which
rows there are, not on their order. -/
theorem solutionIsUnique : Obligations.SolutionIsUnique := by
  intro p hp w n rows _ hlen hcoef hpayload hind
  obtain ⟨K, _, ⟨φ⟩⟩ := exists_fieldModel hp
  have hvs : ∀ v ∈ rows.map Row.coef, v.length = w := List.forall_mem_map.2 hcoef
  have hsquare : (rows.map Row.coef).length = w := (List.length_map _).trans hlen
  have hspan (c : List Byte) (hc : c.length = w) : InSpan p w (rows.map Row.coef) c :=
    inSpan_of_independent hp hvs hsquare hind hc
  have hunique : ∀ xs, Solves p w n rows xs → solve p w rows = xs := fun xs hxs =>
    solve_eq_of_solves hp hcoef hspan hxs hpayload
  obtain ⟨xs, hxs⟩ := exists_solves (n := n) hlen (φ.invertible_of_independent hvs hsquare hind)
  refine ⟨(hunique xs hxs).symm ▸ hxs, fun xs hxs => (hunique xs hxs).symm, fun rows' hperm => ?_⟩
  have hcoef' : ∀ r ∈ rows', r.coef.length = w := fun r hr => hcoef r (hperm.mem_iff.2 hr)
  obtain ⟨hwidth, hbytes, hequations⟩ := hxs
  rw [hunique xs ⟨hwidth, hbytes, hequations⟩]
  refine solve_eq_of_solves hp hcoef' (fun c hc => ?_)
    ⟨hwidth, hbytes, fun r hr => hequations r (hperm.mem_iff.2 hr)⟩ fun r hr => hpayload r (hperm.mem_iff.2 hr)
  exact (hspan c hc).mono hp (List.forall_mem_map.2 hcoef') (hperm.map Row.coef).subset hc

end Sys2Proof.Machine
end

section
/-! PROOFS. SSOL: its checks in order, the bytes it writes, and that they solve the system the solver held (42_solver.md
R95, R99, R101). -/

namespace Sys2Proof.Machine

/-! ### The bytes SSOL writes -/

/-- One byte more stored after a buffer. -/
theorem StoresBuffer.write {m m' : Memory} {d k : Nat} {value : Nat → Byte} (h : StoresBuffer m m' d k value) :
    StoresBuffer m (m'.write (d + k) (value k)) d (k + 1) value := by
  obtain ⟨hinside, houtside⟩ := h
  refine ⟨fun i hi => ?_, fun a ha => ?_⟩
  · rw [Memory.read_write]
    split
    next hlast => rw [Nat.add_left_cancel hlast]
    next hbefore => exact hinside i (by omega)
  · rw [Memory.read_write_ne _ _ _ _ (by omega)]
    exact houtside a (by omega)

/-- The accesses of an SSOL that has made none store the bytes of the solution from DST on (R99). -/
theorem storesBuffer_runAccesses_ssolAccess (xs : List (List Byte)) (n : Nat) {f : InFlight} (m : Memory)
    (hmade : f.made = 0) (k : Nat) :
    StoresBuffer m (runAccesses (ssolAccess xs n) k f m).2 f.dstNat k (solutionByte xs n) := by
  have hprogress (k : Nat) : ((ssolAccess xs n)^[k] (f, m)).1.made = k ∧
      ((ssolAccess xs n)^[k] (f, m)).1.dstNat = f.dstNat ∧
      StoresBuffer m ((ssolAccess xs n)^[k] (f, m)).2 f.dstNat k (solutionByte xs n) := by
    induction k with
    | zero => exact ⟨hmade, rfl, fun i hi => absurd hi (Nat.not_lt_zero i), fun _ _ => rfl⟩
    | succ k ih =>
      obtain ⟨hk, hdst, hstores⟩ := ih
      rw [Function.iterate_succ_apply']
      refine ⟨congrArg (· + 1) hk, hdst, ?_⟩
      rw [ssolAccess, storeByte_mem, hk, hdst]
      exact hstores.write
  obtain ⟨-, -, hstores⟩ := hprogress k
  rwa [runAccesses, hmade, Nat.sub_zero]

/-- Byte `b` of unknown `j` is the byte `j * n + b` of the output (R94, R99). -/
theorem solutionByte_mul_add (xs : List (List Byte)) {n b : Nat} (hb : b < n) (j : Nat) :
    solutionByte xs n (j * n + b) = (xs.getD j []).getD b 0x00#8 := by
  have hn : 0 < n := Nat.zero_lt_of_lt hb
  rw [solutionByte, Nat.mul_comm, Nat.mul_add_div hn, Nat.div_eq_of_lt hb, Nat.mul_add_mod, Nat.mod_eq_of_lt hb,
    Nat.add_zero]

/-! ### SSOL from its issue -/

/-- The system is full and DST has room for its solution: the checks of SSOL pass (R99). -/
def State.SsolFits (s : State) : Prop :=
  0 < s.solver.width ∧ s.solver.rows.length = s.solver.width ∧
    s.dst.toNat + s.solver.width * s.solver.slen ≤ s.cfg.memSize

/-- R99: an SSOL whose checks pass, from its issue. -/
theorem exec_ssol {s : State} (h : s.JustIssued) (hfits : s.SsolFits) :
    ∃ m, exec .ssol s = .next ((s.setMem m).setSolver Solver.clear).successCompletion ∧
      StoresBuffer s.mem m s.dst.toNat (s.solver.width * s.solver.slen)
        (solutionByte (solve s.cfg.fieldPoly s.solver.width s.solver.rows) s.solver.slen) := by
  obtain ⟨w, hw⟩ := h.flight_eq .ssol
  obtain ⟨hpos, hsquare, hdst⟩ := hfits
  have herr : errorOf .ssol s (s.freshFlight w) = none :=
    (errorOf_ssol_eq_none_iff s (s.freshFlight w)).2 ⟨⟨hpos.ne', hsquare⟩, hdst⟩
  refine ⟨(remainingAccesses .ssol s).2, ?_, ?_⟩
  · rw [exec_eq_conclude, hw, herr]
    rfl
  · rw [remainingAccesses, hw, accessTotal_ssol s _ herr]
    exact storesBuffer_runAccesses_ssolAccess (f := s.freshFlight w) _ _ s.mem rfl _

section Checks
variable {s : State} {f : InFlight}

/-- The first check of SSOL (R99). -/
theorem errorOf_ssol_notFull (h : s.solver.width = 0 ∨ s.solver.rows.length ≠ s.solver.width) :
    errorOf .ssol s f = some .notFull := by
  simp only [errorOf, ssolError, firstError_cons, h, decide_true, if_true]

/-- The second check of SSOL, where the first passes (R99). -/
theorem errorOf_ssol_range (hpos : 0 < s.solver.width) (hsquare : s.solver.rows.length = s.solver.width)
    (h : s.cfg.memSize < f.dstNat + s.solver.width * s.solver.slen) : errorOf .ssol s f = some .range := by
  simp [errorOf, ssolError, inRange, hpos.ne', hsquare, h]

end Checks

/-! ### The obligations -/

/-- An unknown lies inside the output of SSOL (R94). -/
theorem mul_add_lt_mul {j w b n : Nat} (hj : j < w) (hb : b < n) : j * n + b < w * n :=
  calc j * n + b < j * n + n := Nat.add_lt_add_left hb _
    _ = (j + 1) * n := (Nat.succ_mul j n).symm
    _ ≤ w * n := Nat.mul_le_mul_right n hj

/-- Settles O29: the bytes of the solution, stored one after the other. -/
theorem ssolCompletes : Obligations.SsolCompletes := by
  rintro s _ _ _ hissued rfl rfl rfl hpos hsquare hrange
  obtain ⟨m, hexec, hinside, houtside⟩ := exec_ssol hissued ⟨hpos, hsquare, hrange⟩
  refine ⟨_, hexec, rfl, fun j b hj hb => ?_, houtside⟩
  rw [Nat.add_assoc]
  exact (hinside _ (mul_add_lt_mul hj hb)).trans (solutionByte_mul_add _ hb j)

/-- Memory that holds the bytes of `xs` one after the other holds each of them. -/
theorem map_readMany_eq {m : Memory} {d w n : Nat} {xs : List (List Byte)} (hwidth : xs.length = w)
    (hbytes : ∀ x ∈ xs, x.length = n)
    (hread : ∀ j b, j < w → b < n → m.read (d + j * n + b) = (xs.getD j []).getD b 0x00#8) :
    ((List.range w).map fun j => m.readMany (d + j * n) n) = xs := by
  refine List.ext_getElem (by simp [hwidth]) fun j hj hj' => ?_
  have hx : xs[j].length = n := hbytes _ (List.getElem_mem _)
  refine List.ext_getElem (by simp [hx]) fun b hb hb' => ?_
  have hbyte := hread j b (hwidth ▸ hj') (hx ▸ hb')
  simpa [Memory.readMany, hj', hb'] using hbyte

/-- Settles O31: each check that fails ends SSOL with its code, and where none does the bytes it stores (O29) are those
of the solution (O30). -/
theorem ssolRecoversSymbols : Obligations.SsolRecoversSymbols := by
  refine ⟨?_, decode_encode (i := .ssol) rfl, zeroFieldsChecked_row .ssol (by decide) (by decide)⟩
  rintro s _ _ _ h hsolver hissued rfl rfl rfl
  refine ⟨fun hfull => ?_, fun hpos hsquare hpast => ?_, fun hpos hsquare hrange => ?_⟩
  · exact exec_of_error hissued fun _ => errorOf_ssol_notFull hfull
  · exact exec_of_error hissued fun _ => errorOf_ssol_range hpos hsquare hpast
  · obtain ⟨t, hexec, ht, hread, houtside⟩ := ssolCompletes s _ _ _ hissued rfl rfl rfl hpos hsquare hrange
    obtain ⟨hsolves, -⟩ := solutionIsUnique s.cfg.fieldPoly h.cfgLegal.1 s.solver.width s.solver.slen s.solver.rows
      hpos hsquare h.coefLength h.payloadLength hsolver.independent
    obtain ⟨hwidth, hbytes, -⟩ := id hsolves
    exact ⟨t, hexec, ht, (map_readMany_eq hwidth hbytes hread).symm ▸ hsolves, houtside⟩

end Sys2Proof.Machine
end

section
/-! PROOFS. Completions and errors: the illegal word, the order of the checks, what a completion changes, the writes
dropped while a command is in flight, and `irq` (60_exceptions.md R106 to R111). -/

namespace Sys2Proof.Machine

/-! ### The completion of an illegal word -/

/-- The engine's remaining steps on an illegal word are its completion with ILLEGAL (R110). -/
theorem engineRun_illegal {s : State} {f : InFlight} {e : Illegal} (hf : s.inflight = some f)
    (hd : decode f.word = .error e) : engineRun s = .next (s.errorCompletion .illegal) := by simp [engineRun, hf, hd]

/-- Settles O6: the write to CMD is an issue, and the word it put in flight then decodes to no command. -/
theorem illegalWordCompletes : Obligations.IllegalWordCompletes := by
  intro s w e rest hrst hidle hd hturns
  obtain ⟨hissue, -⟩ := cmdWriteIssues.2 s w (.engine :: rest) hrst hturns
  refine ⟨(s.setTurns (.engine :: rest)).issue w, hissue hidle, ?_, ?_, ?_⟩
  · rw [State.readReg, statusWord_getLsbD]
    rfl
  · rw [State.readReg, statusWord_getLsbD]
    rfl
  · rw [step_cons _ .engine rest rfl]
    exact engineStep_illegal (((s.setTurns (.engine :: rest)).issue w).setTurns rest) (s.freshFlight w) e rfl hd

/-! ### What a completion changes -/

/-- No command has an effect on ERR, OVR or CTRL (R107). -/
theorem commandEffects_flags (i : Instr) (s : State) :
    (commandEffects i s).err = s.err ∧ (commandEffects i s).ovr = s.ovr ∧ (commandEffects i s).doneIe = s.doneIe ∧
      (commandEffects i s).errIe = s.errIe := by
  cases i <;> exact ⟨rfl, rfl, rfl, rfl⟩

/-- A command with a check that applies is its error completion (R106). -/
theorem exec_of_errorOf {i : Instr} {s : State} {c : ErrCode} (h : errorOf i s (s.flight i) = some c) :
    exec i s = .next (s.errorCompletion c) := by
  rw [exec_eq_conclude, h, conclude_some]

/-- A command with no check that applies is its effects and a successful completion (R107). -/
theorem exec_of_no_error {i : Instr} {s : State} (h : errorOf i s (s.flight i) = none) :
    exec i s = .next (commandEffects i s).successCompletion := by
  rw [exec_eq_conclude, h, conclude_none]

/-- Settles O35: an error completion has no effect but its own, and a command's effects leave the flags alone. -/
theorem completionsArePrecise : Obligations.CompletionsArePrecise :=
  ⟨fun s f e hf hd => ⟨engineStep_illegal s f e hf hd, engineRun_illegal hf hd⟩,
    fun i s => ⟨fun _ hfail => exec_of_errorOf hfail,
      fun hok => ⟨_, exec_of_no_error hok, rfl, rfl, rfl, commandEffects_flags i s⟩⟩⟩

/-! ### Writes while a command is in flight -/

/-- A write to CMD or an operand register while BUSY does nothing but set OVR (R43, R109). -/
theorem writeReg_dropped {s : State} {f : InFlight} (hf : s.inflight = some f) {r : Reg}
    (hr : r ∈ [Reg.cmd, .dst, .src, .coef, .len]) (v : Word) : s.writeReg r v = s.setOvr := by
  have hdrop (t : State) : s.unlessBusy t = s.setOvr := unlessBusy_busy s t (s.busy_some f hf)
  simp only [List.mem_cons, List.not_mem_nil, or_false] at hr
  rcases hr with rfl | rfl | rfl | rfl | rfl <;> exact hdrop _

/-- OVR bears on no effect of a command (R109). -/
theorem commandEffects_setOvr (i : Instr) (s : State) : commandEffects i s.setOvr = (commandEffects i s).setOvr := by
  cases i <;> rfl

/-- OVR bears on no command's result (R109). -/
theorem exec_setOvr {i : Instr} {s t : State} (h : exec i s = .next t) : exec i s.setOvr = .next t.setOvr := by
  obtain ⟨u, hu, hmap⟩ := exec_map (i := i) (s := s) (u := s.setOvr) State.setOvr
    (errorOf_congr i rfl rfl rfl rfl rfl rfl) (fun _ => rfl) (by rw [commandEffects_setOvr]; rfl)
  cases h.symm.trans hu
  exact hmap

/-- Settles O40: the write is dropped, and no check and no effect of a command looks at OVR. -/
theorem droppedWritesSetOvr : Obligations.DroppedWritesSetOvr := by
  refine ⟨fun s f r v rest hr hrst hf hturns => ?_, fun i s t h => exec_setOvr h⟩
  rw [step_busWrite_reg hrst hturns, writeReg_dropped (s := s.setTurns rest) hf hr]
  rfl

/-! ### The order of the checks -/

/-- The range check as it stands in the lists of checks (R48). -/
theorem not_inRange_iff (cfg : Config) (a n : Nat) : (!inRange cfg a n) = true ↔ cfg.memSize < a + n := by
  simp [inRange]

section Checks
variable (s : State) (f : InFlight)

/-- The check of DIV (R87). -/
theorem errorOf_div (a b : Byte) : errorOf (.div a b) s f = if b = 0 then some .divZero else none := by
  simp only [errorOf, divError, firstError_cons, firstError_nil, beq_iff_eq]
  rfl

/-- The check of INV (R88). -/
theorem errorOf_inv (a : Byte) : errorOf (.inv a) s f = if a = 0 then some .divZero else none := by
  simp only [errorOf, invError, firstError_cons, firstError_nil, beq_iff_eq]
  rfl

/-- The checks of MAC, in the order of R89. -/
theorem errorOf_mac (c : Byte) : errorOf (.mac c) s f =
    if s.cfg.memSize < f.dst.toNat + f.len.toNat then some .range
    else if s.cfg.memSize < f.src.toNat + f.len.toNat then some .range
    else if 0 < f.len.toNat ∧ f.dst.toNat ≠ f.src.toNat ∧ f.dst.toNat < f.src.toNat + f.len.toNat ∧
        f.src.toNat < f.dst.toNat + f.len.toNat then some .overlap
    else none := by
  simp only [errorOf, macError, firstError_cons, firstError_nil, not_inRange_iff, overlapping_iff]
  rfl

/-- The checks of SWID, in the order of R97. -/
theorem errorOf_swid (n : Nat) : errorOf (.swid n) s f =
    if n < s.solver.width then some .widthShrink
    else if s.cfg.maxCols < n then some .widthOverflow
    else none := by
  simp only [errorOf, swidError, firstError_cons, firstError_nil, decide_eq_true_eq]

/-- The checks of SINS, in the order of R98. -/
theorem errorOf_sins : errorOf .sins s f =
    if s.cfg.maxSym < f.len.toNat then some .lenOverflow
    else if 0 < s.solver.rows.length ∧ f.len.toNat ≠ s.solver.slen then some .lenMismatch
    else if s.cfg.memSize < f.coef.toNat + s.solver.width then some .range
    else if s.cfg.memSize < f.src.toNat + f.len.toNat then some .range
    else none := by
  simp only [errorOf, sinsError, firstError_cons, firstError_nil, not_inRange_iff, decide_eq_true_eq]
  rfl

/-- The checks of SSOL, in the order of R99. -/
theorem errorOf_ssol : errorOf .ssol s f =
    if s.solver.width = 0 ∨ s.solver.rows.length ≠ s.solver.width then some .notFull
    else if s.cfg.memSize < f.dst.toNat + s.solver.width * s.solver.slen then some .range
    else none := by
  simp only [errorOf, ssolError, firstError_cons, firstError_nil, not_inRange_iff, decide_eq_true_eq]
  rfl

end Checks

/-- Settles O34: the checks of each command, and the completion that reports the first one that applies. -/
theorem errorsReportedInOrder : Obligations.ErrorsReportedInOrder := by
  refine ⟨fun s f a b n => ⟨rfl, rfl, errorOf_div s f a b, errorOf_inv s f a, errorOf_mac s f a, rfl,
      errorOf_swid s f n, errorOf_sins s f, errorOf_ssol s f⟩,
    fun i s c hfail => ⟨_, exec_of_errorOf hfail, rfl⟩,
    fun s f e hf hd => ⟨_, engineStep_illegal s f e hf hd, rfl⟩, fun s f v hf r hr => ?_⟩
  rw [writeReg_dropped hf hr, State.setOvr_errcode]

/-! ### The interrupt output -/

/-- Settles O47: `irq` in terms of DONE, ERR and OVR (O45), which are bits of STATUS like the other three. -/
theorem irqLevel : Obligations.IrqLevel := by
  intro s
  obtain ⟨-, hirq, -⟩ := ctrlOnlyEnablesIrq
  have hdone : (s.readReg .status).getLsbD 1 = s.done := statusWord_getLsbD s 1
  have herr : (s.readReg .status).getLsbD 2 = s.err := statusWord_getLsbD s 2
  have hovr : (s.readReg .status).getLsbD 3 = s.ovr := statusWord_getLsbD s 3
  have hfull : (s.readReg .status).getLsbD 5 = s.solver.full := statusWord_getLsbD s 5
  refine ⟨?_, statusWord_getLsbD s 0, hdone, herr, hovr, statusWord_getLsbD s 4, ?_⟩
  · rw [hdone, herr, hovr]
    exact hirq s
  · rw [hfull]
    exact s.solver.full_iff

end Sys2Proof.Machine
end

section
/-! PROOFS. Progress: with the host silent, the command in flight completes (70_reset_and_hazards.md R131). -/

namespace Sys2Proof.Machine

/-- Every command completes, in error or successfully (R106, R107). -/
theorem exec_completes (i : Instr) (s : State) : ∃ t, exec i s = .next t ∧ t.inflight = none ∧ t.done = true := by
  cases herr : errorOf i s (s.flight i) with
  | some e => exact ⟨_, exec_of_errorOf herr, rfl, rfl⟩
  | none => exact ⟨_, exec_of_no_error herr, rfl, rfl⟩

/-- With no turn listed, one step per access left and one more end where the command ends, from every progress of it. -/
theorem run_no_turns {i : Instr} {s : State} {f : InFlight} (hturns : s.turns = []) (hd : decode f.word = .ok i)
    (g : InFlight) (m : Memory) (hops : sameOperands g f) :
    Host.Core.run Sys2Proof.core (accessTotal i s f - g.made + 1) (s.atProgress g m) = exec i (s.atProgress g m) := by
  induction g, m, hops using access_induct (i := i) (s := s) with
  | done g m hops hdone =>
    have htotal : accessTotal i (s.atProgress g m) g = accessTotal i s f := hops.accessTotal_eq i rfl rfl
    have hcomplete : engineStep (s.atProgress g m) = exec i (s.atProgress g m) :=
      engineStep_complete (s.atProgress g m) g i rfl (hops.1 ▸ hd) (by omega)
    rw [Nat.sub_eq_zero_of_le hdone, run_one]
    exact (step_nil (s.atProgress g m) hturns).trans hcomplete
  | access g m hops hleft ih =>
    have htotal : accessTotal i (s.atProgress g m) g = accessTotal i s f := hops.accessTotal_eq i rfl rfl
    have haccess : accessOnce i (s.atProgress g m) = accessOnce i s := accessOnce_congr i rfl rfl
    have hstep : step (s.atProgress g m) =
        .next (s.atProgress (accessOnce i s (g, m)).1 (accessOnce i s (g, m)).2) := by
      rw [step_nil (s.atProgress g m) hturns, ← haccess]
      exact engineStep_access (s.atProgress g m) g i rfl (hops.1 ▸ hd) (by omega)
    have hmade : (accessOnce i s (g, m)).1.made = g.made + 1 := accessOnce_made hleft (g, m)
    have hcount : accessTotal i s f - g.made = accessTotal i s f - (g.made + 1) + 1 := by omega
    rw [hmade] at ih
    rw [hcount, run_succ hstep, ih]
    exact exec_accessOnce m hops hleft

/-- Settles O11: an illegal word completes in the first step, a command after the accesses it has left. -/
theorem commandInFlightCompletes : Obligations.CommandInFlightCompletes := by
  intro s f hf hturns
  cases hd : decode f.word with
  | error e =>
    refine ⟨1, s.errorCompletion .illegal, fun i hi => (nomatch hi), fun _ _ => le_rfl, ?_, rfl, rfl⟩
    exact (run_one s).trans ((step_nil s hturns).trans (engineStep_illegal s f e hf hd))
  | ok i =>
    obtain ⟨t, hexec, hidle, hdone⟩ := exec_completes i s
    have hrun := run_no_turns hturns hd f s.mem (.refl f)
    rw [atProgress_self hf, hexec] at hrun
    refine ⟨accessTotal i s f - f.made + 1, t, fun j hj => ?_, fun e he => (nomatch he), hrun, hidle, hdone⟩
    cases hj
    exact le_rfl

end Sys2Proof.Machine
end

section
/-! PROOFS. RESULT, ERRCODE and the solver's registers change only with a completion (70_reset_and_hazards.md R127). -/

namespace Sys2Proof.Machine

/-- The results of commands are the same in both states: what RESULT, ERRCODE, WIDTH, RANK, SLEN, DEP and FULL are views
of (R127). -/
def SameResults (s t : State) : Prop := t.result = s.result ∧ t.errcode = s.errcode ∧ t.solver = s.solver

/-- The registers and the STATUS bits of R127 read alike. -/
theorem SameResults.reads {s t : State} (h : SameResults s t) :
    (∀ r ∈ [Reg.result, .errcode, .width, .rank, .slen], t.readReg r = s.readReg r) ∧
      (t.readReg .status).getLsbD 4 = (s.readReg .status).getLsbD 4 ∧
      (t.readReg .status).getLsbD 5 = (s.readReg .status).getLsbD 5 := by
  obtain ⟨hresult, herrcode, hsolver⟩ := h
  refine ⟨fun r hr => ?_, ?_, ?_⟩
  · simp only [List.mem_cons, List.not_mem_nil, or_false] at hr
    rcases hr with rfl | rfl | rfl | rfl | rfl <;> simp only [State.readReg, hresult, herrcode, hsolver]
  all_goals
    simp only [State.readReg, statusWord_getLsbD, hsolver]
    rfl

/-- A register write changes no result (R28, R30, R35 to R37). -/
theorem writeOffset_sameResults (s : State) (off : Nat) (v : Word) : SameResults s (s.writeOffset off v) := by
  rcases writeOffset_cases s off v with
    hw | hw | hw | ⟨-, hw⟩ | ⟨-, hw | hw | hw | hw | hw⟩ <;> rw [hw] <;> exact ⟨rfl, rfl, rfl⟩

/-- What the unit does without completing a command changes no result. -/
theorem EngineMove.sameResults {s t : State} (hmove : EngineMove s t)
    (hopen : ¬ (s.inflight.isSome = true ∧ t.inflight = none)) : SameResults s t := by
  cases hmove with
  | idle => exact ⟨rfl, rfl, rfl⟩
  | access => exact ⟨rfl, rfl, rfl⟩
  | illegal hf | fail hf | succeed hf => exact absurd ⟨by simp [hf], rfl⟩ hopen

theorem TurnMove.sameResults {turn : Turn} {s t : State} (hmove : TurnMove s turn t)
    (hrst : ∀ level, turn ≠ .rst level) (hopen : ¬ (s.inflight.isSome = true ∧ t.inflight = none)) :
    SameResults s t := by
  cases hmove with
  | read => exact ⟨rfl, rfl, rfl⟩
  | write => exact writeOffset_sameResults s _ _
  | store => exact ⟨rfl, rfl, rfl⟩
  | unit hmove => exact hmove.sameResults hopen
  | rst level => exact absurd rfl (hrst level)

/-- Settles O49: of the moves that change a result, one drives `rst` and the others complete the command in flight. -/
theorem resultsChangeOnlyAtCompletion : Obligations.ResultsChangeOnlyAtCompletion := by
  intro s t hstep hrst hopen
  refine SameResults.reads ?_
  rcases step_move hstep with ⟨-, hmove⟩ | ⟨turn, rest, hturns, hmove⟩
  · exact hmove.sameResults hopen
  · exact hmove.sameResults (fun level hlevel => hrst level rest (hlevel ▸ hturns)) hopen

end Sys2Proof.Machine
end

section
/-! PROOFS. Reset: the reset values, the bytes of an abandoned command, and the shape of the state after power-up
(70_reset_and_hazards.md R119 to R121). -/

namespace Sys2Proof.Machine

/-! ### The state after power-up -/

theorem legal_reference : Config.reference.Legal := by decide

/-- After power-up the state has the shape of the invariant, memory listing nothing and the solver clear. -/
theorem powerUp_inv {c : Config} (h : c.Legal) : (State.powerUp c).Inv where
  cfgLegal := h
  memSorted := .nil
  memInside := fun _ hc => nomatch hc
  widthBound := (Solver.shaped_clear c).widthBound
  coefLength := (Solver.shaped_clear c).coefLength
  payloadLength := (Solver.shaped_clear c).payloadLength
  slenBound := (Solver.shaped_clear c).slenBound
  slenClear := (Solver.shaped_clear c).slenClear
  busyNotDone := fun hbusy => nomatch hbusy
  latched := fun _ hf => nomatch hf
  progress := fun _ hf => nomatch hf
  heldInReset := fun hrst => nomatch hrst

/-- Settles O58: the reset state is that after power-up with the reference configuration, which is legal. -/
theorem resetSatisfiesInv : Obligations.ResetSatisfiesInv :=
  ⟨fun _ => powerUp_inv, powerUp_inv legal_reference⟩

/-! ### The reset values -/

/-- The unit reset has its reset values, at either level of `rst` (R119). -/
theorem atReset_resetUnit (s : State) (level : Bool) : ({ s.resetUnit with rst := level } : State).AtReset := by
  refine ⟨rfl, rfl, rfl, rfl, fun r hid hpoly hmaxcols hmaxsym => ?_, rfl, rfl, rfl⟩
  cases r with
  | id => exact absurd rfl hid
  | poly => exact absurd rfl hpoly
  | maxcols => exact absurd rfl hmaxcols
  | maxsym => exact absurd rfl hmaxsym
  | ctrl => simp [State.readReg, State.ctrlWord]
  | status => simp [State.readReg, State.statusWord, State.busy, Solver.clear, Solver.full]
  | _ => rfl

theorem atReset_powerUp (c : Config) : (State.powerUp c).AtReset := atReset_resetUnit (State.powerUp c) false

/-- Driven back low, `rst` resets the unit once more (R119). -/
theorem setRst_false_of_rst {s : State} (h : s.rst = true) :
    s.setRst false = { s.resetUnit with rst := false } := if_pos h

/-- Driving `rst` on a unit held in reset resets it once more (R119). -/
theorem atReset_setRst {s : State} {level : Bool} (h : level = true ∨ s.rst = true) : (s.setRst level).AtReset := by
  cases level with
  | true => exact atReset_resetUnit s.abandon true
  | false =>
    rw [setRst_false_of_rst (h.resolve_left Bool.false_ne_true)]
    exact atReset_resetUnit s false

/-- With nothing in flight the unit does nothing (R118). -/
theorem EngineMove.eq_of_idle {s t : State} (hmove : EngineMove s t) (hidle : s.inflight = none) : t = s := by
  cases hmove with
  | idle => rfl
  | illegal hf | access hf | fail hf | succeed hf => cases hidle.symm.trans hf

section AtReset
variable {s : State} (h : s.AtReset)
include h

theorem State.AtReset.idle : s.inflight = none :=
  let ⟨_, _, _, _, _, _, hidle, _⟩ := h
  hidle

/-- The reset values bear on neither memory nor the model's own fields. -/
theorem State.AtReset.setTurns (ts : List Turn) : (s.setTurns ts).AtReset := h

theorem State.AtReset.setReadData (v : Word) : (s.setReadData v).AtReset := h

theorem State.AtReset.setMem (m : Memory) : (s.setMem m).AtReset := h

/-- A turn taken while `rst` is asserted keeps the reset values (R119, R122). -/
theorem TurnMove.atReset {turn : Turn} {t : State} (hmove : TurnMove s turn t) (hrst : s.rst = true) : t.AtReset := by
  cases hmove with
  | read v => exact h.setReadData v
  | write _ hlow => cases hrst.symm.trans hlow
  | store => exact h.setMem _
  | unit hmove => exact hmove.eq_of_idle h.idle ▸ h
  | rst level => exact atReset_setRst (.inr hrst)

end AtReset

/-- Settles O52: `rst` driven high or back low resets the unit, and no turn between moves it. -/
theorem resetEstablishesResetValues : Obligations.ResetEstablishesResetValues := by
  refine ⟨fun s rest => ⟨fun hturns => ?_, fun hturns hrst => ?_⟩, fun s t hrst h hstep => ?_,
    fun c => ⟨atReset_powerUp c, rfl⟩, atReset_powerUp _⟩
  · exact ⟨_, step_cons s _ rest hturns, rfl, rfl, rfl, atReset_setRst (.inl rfl)⟩
  · have hlow := setRst_false_of_rst (s := s.setTurns rest) hrst
    refine ⟨_, step_cons s _ rest hturns, ?_, ?_, ?_, atReset_setRst (.inr hrst)⟩ <;> rw [hlow] <;> rfl
  · rcases step_move hstep with ⟨-, hmove⟩ | ⟨turn, rest, -, hmove⟩
    · exact hmove.eq_of_idle h.idle ▸ h
    · exact hmove.atReset (h.setTurns rest) hrst

/-! ### Buffer memory -/

/-- Nothing in flight writes nothing (R58). -/
theorem writtenFootprint_idle {s : State} (h : s.inflight = none) : s.writtenFootprint = (0, 0) := by
  simp [State.writtenFootprint, h]

/-- Reset leaves a byte alone that the abandoned command does not write (R120, R121). -/
theorem abandon_mem_read_outside {s : State} {a : Nat} (h : inBuffer a s.writtenFootprint = false) :
    s.abandon.mem.read a = s.mem.read a := by
  rw [State.abandon_mem, Memory.read_scramble, if_neg]
  simpa [inBuffer] using h

/-- Each byte the abandoned command writes holds the next free draw (R121). -/
theorem abandon_mem_read_inside {s : State} {j : Nat} (h : j < s.writtenFootprint.2) :
    s.abandon.mem.read (s.writtenFootprint.1 + j) = Config.abandonedByte (s.draws + j) := by
  rw [State.abandon_mem, Memory.read_scramble, if_pos (by omega), Nat.add_sub_cancel_left]

/-- With nothing in flight there is nothing to abandon. -/
theorem abandon_mem_idle {s : State} (h : s.inflight = none) : s.abandon.mem = s.mem := by
  rw [State.abandon_mem, writtenFootprint_idle h]
  rfl

theorem setRst_false_mem (s : State) : (s.setRst false).mem = s.mem := by
  rw [setRst_false]
  split <;> rfl

/-- Settles O53: driving `rst` high abandons the command in flight of the state less that turn, whose footprint is the
same, and the reset of the unit keeps memory. -/
theorem resetKeepsMemory : Obligations.ResetKeepsMemory := by
  refine ⟨fun c a => rfl, fun s rest => ⟨fun hturns => ?_, fun hturns => ?_⟩⟩
  · exact ⟨_, step_cons s _ rest hturns, fun a => abandon_mem_read_outside (s := s.setTurns rest),
      fun j => abandon_mem_read_inside (s := s.setTurns rest), rfl, atReset_setRst (.inl rfl),
      abandon_mem_idle (s := s.setTurns rest)⟩
  · exact ⟨_, step_cons s _ rest hturns, setRst_false_mem _⟩

end Sys2Proof.Machine
end
